-- ==== Sys2Proof/Word.lean ====
section
/-! DEFINITION. The byte, and the numbers of the objects the manual counts from 0 (00_scope.md, section 5). -/

namespace Sys2Proof

/-- A byte of a frame or a record (chapter 13). -/
abbrev Byte := BitVec 8

/-- A zone, Z0 to Z31. -/
abbrev ZoneId := Fin 32

/-- A train slot, T0 to T7. -/
abbrev TrainId := Fin 8

/-- A track switch, SW0 to SW3. -/
abbrev SwitchId := Fin 4

/-- A control port, CP0 to CP3. CP0 is the supervisor's. -/
abbrev PortId := Fin 4

/-- A route, RT0 to RT7. -/
abbrev RouteId := Fin 8

/-- A route step, step 0 to step 15. -/
abbrev StepId := Fin 16

/-- A READY input, READY0 to READY3. -/
abbrev ReadyId := Fin 4

/-- An emergency-stop line, ESTOP0 or ESTOP1. -/
abbrev EstopId := Fin 2

end Sys2Proof
end

