-- ==== Sys2Proof/Syntax.lean ====
section
/-! DEFINITION. The commands and events of opcode_table.json: one constructor of `Instr` per row. -/

namespace Sys2Proof

/-- The kinds of zone (Table 1-1). All but RUN are stoppable. -/
inductive ZoneKind
  | station | brake | lift | launch | storage | run
deriving DecidableEq, Repr

/-- Where a train leaving a zone goes (R3). -/
inductive Exit
  | zone (z : ZoneId)
  | switch (n : SwitchId)
deriving DecidableEq, Repr

/-- The fields LOAD_ZONE carries for a kind other than NONE (Table 1-1), as the command carries them: numbers are
bytes not yet examined, and an absent READY index or owner port is `none`. -/
structure ZoneFields where
  kind : ZoneKind
  exit : Exit
  entryHigh : Bool
  stopHigh : Bool
  settle : Nat
  gap : Nat
  limit : Nat
  travel : Nat
  window : Nat
  ready : Option Nat
  owner : Option Nat
  wait : Nat
deriving DecidableEq, Repr

/-- The kinds of track switch (Table 1-2). -/
inductive SwitchKind
  | diverge | merge
deriving DecidableEq, Repr

/-- The fields LOAD_SWITCH carries for a kind other than NONE (Table 1-2). -/
structure SwitchFields where
  kind : SwitchKind
  root : Nat
  straight : Nat
  diverge : Nat
  moveLimit : Nat
deriving DecidableEq, Repr

/-- The actions of a route step (Table 5-2). -/
inductive Action
  | pass | hold | dispatch | park
deriving DecidableEq, Repr

/-- What an opener repeats (Table 5-2): a counted number of laps, or until broken. -/
inductive OpenerKind
  | counted (count : Nat)
  | forever
deriving DecidableEq, Repr

/-- The fields LOAD_STEP carries (Table 5-2); `none` is the action NONE. The opener is absent, or its kind with its end
step. -/
structure StepFields where
  zone : Nat
  action : Option Action
  dwell : Nat
  opener : Option (OpenerKind × Nat)
deriving DecidableEq, Repr

/-- The route option of PLACE_TRAIN (R69). -/
inductive RouteOption
  | none
  | keep
  | at (route step : Nat)
deriving DecidableEq, Repr

/-- What RETURN_SECTION declares of a zone (R143). -/
inductive Declared
  | empty
  | train (n : Nat)
deriving DecidableEq, Repr

/-- A lie of a track switch (R6, Table 8-1). -/
inductive Position
  | straight | diverge
deriving DecidableEq, Repr

/-- The claimant of a claim (Table 6-1). -/
inductive Claimant
  | train (t : TrainId)
  | port (p : PortId)
deriving DecidableEq, Repr

/-- A command a port's command queue holds (Table 11-2), with its parameters as its layout gives them. Numbers are
bytes not yet examined; a named value outside the layouts of R180 stays its code (log 9). -/
inductive Command
  | ping
  | readStatus
  | readZone (zone : Nat)
  | readTrain (train skip : Nat)
  | readSwitch (switch : Nat)
  | readClaim (position skip : Nat)
  | readStep (route step : Nat)
  | setMask (mask : Nat)
  | loadZone (zone : Nat) (fields : Option ZoneFields)
  | loadSwitch (switch : Nat) (fields : Option SwitchFields)
  | loadPort (port role : Nat)
  | loadGlobals (bypass confirm lookBack : Nat)
  | commit
  | uncommit
  | loadStep (route step : Nat) (fields : StepFields)
  | sealRoute (route count : Nat) (wide : Bool)
  | clearRoute (route : Nat)
  | setMode (target : Nat)
  | restart
  | setLease (port count unit : Nat)
  | forceLapse (port : Nat)
  | placeTrain (train zone tag : Nat) (option : RouteOption)
  | assignRoute (train route step : Nat)
  | retireTrain (train disposition : Nat)
  | assertZone (zone declaration : Nat)
  | proceed (train : Nat)
  | breakLoop (train : Nat)
  | resetSwitch (switch : Nat)
  | dispatch (zone : Nat)
  | cancelDispatch (zone : Nat)
  | move (zone : Nat)
  | requestSection (zones : List Nat) (wait : Option Nat)
  | cancelSection
  | returnSection (declarations : List (Nat × Declared))
  | setHold (zone request : Nat)
  | moveSwitch (switch position : Nat)
deriving DecidableEq, Repr

/-- The rows of opcode_table.json. A command carries the port `p` it comes from. -/
inductive Instr
  /-- COLD_START, R164. -/
  | coldStart
  /-- WARM_START, R165. -/
  | warmStart
  /-- COMMAND_FRAME, R168: the bytes clocked in while the chip select was held. -/
  | commandFrame (p : PortId) (bytes : List Byte)
  /-- READ_FRAME, R169: a frame of kind READ with the number of bytes clocked, its kind byte included. -/
  | readFrame (p : PortId) (clocked : Nat)
  /-- REPEAT_FRAME, R169: a frame of kind REPEAT with the number of bytes clocked, its kind byte included. -/
  | repeatFrame (p : PortId) (clocked : Nat)
  /-- PING, R174. -/
  | ping (p : PortId)
  /-- READ_STATUS, R174. -/
  | readStatus (p : PortId)
  /-- READ_ZONE, R34. -/
  | readZone (p : PortId) (zone : Nat)
  /-- READ_TRAIN, R73. -/
  | readTrain (p : PortId) (train skip : Nat)
  /-- READ_SWITCH, R135. -/
  | readSwitch (p : PortId) (switch : Nat)
  /-- READ_CLAIM, R111. -/
  | readClaim (p : PortId) (position skip : Nat)
  /-- READ_STEP, R83. -/
  | readStep (p : PortId) (route step : Nat)
  /-- SET_MASK, R173. -/
  | setMask (p : PortId) (mask : Nat)
  /-- LOAD_ZONE, R2; `none` is the kind NONE. -/
  | loadZone (p : PortId) (zone : Nat) (fields : Option ZoneFields)
  /-- LOAD_SWITCH, R5; `none` is the kind NONE. -/
  | loadSwitch (p : PortId) (switch : Nat) (fields : Option SwitchFields)
  /-- LOAD_PORT, R7. -/
  | loadPort (p : PortId) (port role : Nat)
  /-- LOAD_GLOBALS, R8. -/
  | loadGlobals (p : PortId) (bypass confirm lookBack : Nat)
  /-- COMMIT, R9. -/
  | commit (p : PortId)
  /-- UNCOMMIT, R15. -/
  | uncommit (p : PortId)
  /-- LOAD_STEP, R78. -/
  | loadStep (p : PortId) (route step : Nat) (fields : StepFields)
  /-- SEAL_ROUTE, R80. -/
  | sealRoute (p : PortId) (route count : Nat) (wide : Bool)
  /-- CLEAR_ROUTE, R79. -/
  | clearRoute (p : PortId) (route : Nat)
  /-- SET_MODE, R159; the target mode's code. -/
  | setMode (p : PortId) (target : Nat)
  /-- RESTART, R166. -/
  | restart (p : PortId)
  /-- SET_LEASE, R175. -/
  | setLease (p : PortId) (port count unit : Nat)
  /-- FORCE_LAPSE, R176. -/
  | forceLapse (p : PortId) (port : Nat)
  /-- PLACE_TRAIN, R69. -/
  | placeTrain (p : PortId) (train zone tag : Nat) (option : RouteOption)
  /-- ASSIGN_ROUTE, R70. -/
  | assignRoute (p : PortId) (train route step : Nat)
  /-- RETIRE_TRAIN, R71; the disposition's code. -/
  | retireTrain (p : PortId) (train disposition : Nat)
  /-- ASSERT_ZONE, R25; the declaration's code. -/
  | assertZone (p : PortId) (zone declaration : Nat)
  /-- PROCEED, R72. -/
  | proceed (p : PortId) (train : Nat)
  /-- BREAK_LOOP, R91. -/
  | breakLoop (p : PortId) (train : Nat)
  /-- RESET_SWITCH, R132. -/
  | resetSwitch (p : PortId) (switch : Nat)
  /-- DISPATCH, R116. -/
  | dispatch (p : PortId) (zone : Nat)
  /-- CANCEL_DISPATCH, R120. -/
  | cancelDispatch (p : PortId) (zone : Nat)
  /-- MOVE, R123. -/
  | move (p : PortId) (zone : Nat)
  /-- REQUEST_SECTION, R138; the wait limit in seconds, when one is given. -/
  | requestSection (p : PortId) (zones : List Nat) (wait : Option Nat)
  /-- CANCEL_SECTION, R139. -/
  | cancelSection (p : PortId)
  /-- RETURN_SECTION, R143. -/
  | returnSection (p : PortId) (declarations : List (Nat × Declared))
  /-- SET_HOLD, R142; the request's code. -/
  | setHold (p : PortId) (zone request : Nat)
  /-- MOVE_SWITCH, R133; the position's code. -/
  | moveSwitch (p : PortId) (switch position : Nat)
  /-- ENTRY_SENSOR_CHANGE, R42. -/
  | entrySensorChange (z : ZoneId) (active : Bool)
  /-- PASSAGE_GAP_EXPIRY, R43. -/
  | passageGapExpiry (z : ZoneId)
  /-- PASSAGE_LIMIT_EXPIRY, R44. -/
  | passageLimitExpiry (z : ZoneId)
  /-- STOP_SENSOR_CHANGE, R63. -/
  | stopSensorChange (z : ZoneId) (active : Bool)
  /-- HOLD_FEEDBACK_CHANGE, R32; active means closed. -/
  | holdFeedbackChange (z : ZoneId) (active : Bool)
  /-- HOLD_CONFIRM_EXPIRY, R31. -/
  | holdConfirmExpiry (z : ZoneId)
  /-- READY_CHANGE, R118. -/
  | readyChange (r : ReadyId) (active : Bool)
  /-- ESTOP_LINE_CHANGE, R156. -/
  | estopLineChange (line : EstopId) (active : Bool)
  /-- ESTOP_CLEAR_EXPIRY, R158. -/
  | estopClearExpiry
  /-- SWITCH_POSITION_CHANGE, R131: one of the two position inputs of a switch. -/
  | switchPositionChange (n : SwitchId) (input : Position) (active : Bool)
  /-- MOVE_ARRIVAL, R129. -/
  | moveArrival (n : SwitchId)
  /-- MOVE_LIMIT_EXPIRY, R130. -/
  | moveLimitExpiry (n : SwitchId)
  /-- SETTLE_EXPIRY, R21. -/
  | settleExpiry (z : ZoneId)
  /-- DWELL_EXPIRY, R114. -/
  | dwellExpiry (t : TrainId)
  /-- DEPARTURE_WINDOW_EXPIRY, R67. -/
  | departureWindowExpiry (t : TrainId)
  /-- TRAVEL_LIMIT_EXPIRY, R68. -/
  | travelLimitExpiry (t : TrainId)
  /-- CLAIM_WAIT_EXPIRY, R108: the claimant names the claim, since it has at most one with a wait limit running. -/
  | claimWaitExpiry (claimant : Claimant)
  /-- LEASE_EXPIRY, R175. -/
  | leaseExpiry (p : PortId)
  /-- OCCUPANCY_SAMPLE, R26. -/
  | occupancySample
deriving DecidableEq, Repr

end Sys2Proof
end

