-- ==== Sys2Proof/WellFormed.lean ====
section
/-! DEFINITION. Which commands a port or a field line can carry: numbers are bytes, lists fit a frame, and a read frame
has at least its kind byte. -/

namespace Sys2Proof

/-- A number a parameter byte can carry. -/
def isByte (n : Nat) : Bool := n < 256

/-- An optional number that is a byte, and not the byte that stands for an absent field (R179). -/
def isOptByte : Option Nat → Bool
  | none => true
  | some n => n < 255

/-- The fields of LOAD_ZONE fit its layout (Table 13-7). -/
def ZoneFields.wf (f : ZoneFields) : Bool :=
  isByte f.settle && isByte f.gap && isByte f.limit && isByte f.travel && isByte f.window &&
  isOptByte f.ready && isOptByte f.owner && isByte f.wait

/-- The fields of LOAD_SWITCH fit its layout (R179). -/
def SwitchFields.wf (f : SwitchFields) : Bool :=
  isByte f.root && isByte f.straight && isByte f.diverge && isByte f.moveLimit

/-- The count of a counted opener fits its byte (Table 13-8). -/
def OpenerKind.wf : OpenerKind → Bool
  | .counted c => isByte c
  | .forever => true

/-- The fields of LOAD_STEP fit its layout (Table 13-8). -/
def StepFields.wf (f : StepFields) : Bool :=
  isByte f.zone && isByte f.dwell && f.opener.all fun o => o.1.wf && isByte o.2

/-- The route option of PLACE_TRAIN fits its bytes. -/
def RouteOption.wf : RouteOption → Bool
  | .none => true
  | .keep => true
  | .at r s => isByte r && isByte s

/-- A declaration of RETURN_SECTION fits its bytes. -/
def Declared.wf : Declared → Bool
  | .empty => true
  | .train n => isByte n

/-- A command whose parameters fit a command frame of at most 30 parameter bytes (R168). -/
def Command.wf : Command → Bool
  | .ping | .readStatus | .commit | .uncommit | .restart | .cancelSection => true
  | .readZone z => isByte z
  | .readTrain t k => isByte t && isByte k
  | .readSwitch n => isByte n
  | .readClaim i k => isByte i && isByte k
  | .readStep r s => isByte r && isByte s
  | .setMask m => isByte m
  | .loadZone z f => isByte z && f.all ZoneFields.wf
  | .loadSwitch n f => isByte n && f.all SwitchFields.wf
  | .loadPort p r => isByte p && isByte r
  | .loadGlobals b c l => isByte b && isByte c && isByte l
  | .loadStep r s f => isByte r && isByte s && f.wf
  | .sealRoute r n _ => isByte r && isByte n
  | .clearRoute r => isByte r
  | .setMode m => isByte m
  | .setLease p n u => isByte p && isByte n && isByte u
  | .forceLapse p => isByte p
  | .placeTrain t z g o => isByte t && isByte z && isByte g && o.wf
  | .assignRoute t r s => isByte t && isByte r && isByte s
  | .retireTrain t d => isByte t && isByte d
  | .assertZone z d => isByte z && isByte d
  | .proceed t => isByte t
  | .breakLoop t => isByte t
  | .resetSwitch n => isByte n
  | .dispatch z => isByte z
  | .cancelDispatch z => isByte z
  | .move z => isByte z
  | .requestSection zs w => decide (zs.length ≤ 28) && zs.all isByte && isOptByte w
  | .returnSection ds => decide (ds.length ≤ 9) && ds.all fun d => isByte d.1 && d.2.wf
  | .setHold z r => isByte z && isByte r
  | .moveSwitch n q => isByte n && isByte q

/-- The command a command row stands for; `none` for a start, a frame or an event. -/
def Instr.command : Instr → Option (PortId × Command)
  | .coldStart | .warmStart | .commandFrame _ _ | .readFrame _ _ | .repeatFrame _ _ => none
  | .ping p => some (p, .ping)
  | .readStatus p => some (p, .readStatus)
  | .readZone p z => some (p, .readZone z)
  | .readTrain p t k => some (p, .readTrain t k)
  | .readSwitch p n => some (p, .readSwitch n)
  | .readClaim p i k => some (p, .readClaim i k)
  | .readStep p r s => some (p, .readStep r s)
  | .setMask p m => some (p, .setMask m)
  | .loadZone p z f => some (p, .loadZone z f)
  | .loadSwitch p n f => some (p, .loadSwitch n f)
  | .loadPort p q r => some (p, .loadPort q r)
  | .loadGlobals p b c l => some (p, .loadGlobals b c l)
  | .commit p => some (p, .commit)
  | .uncommit p => some (p, .uncommit)
  | .loadStep p r s f => some (p, .loadStep r s f)
  | .sealRoute p r n w => some (p, .sealRoute r n w)
  | .clearRoute p r => some (p, .clearRoute r)
  | .setMode p m => some (p, .setMode m)
  | .restart p => some (p, .restart)
  | .setLease p q n u => some (p, .setLease q n u)
  | .forceLapse p q => some (p, .forceLapse q)
  | .placeTrain p t z g o => some (p, .placeTrain t z g o)
  | .assignRoute p t r s => some (p, .assignRoute t r s)
  | .retireTrain p t d => some (p, .retireTrain t d)
  | .assertZone p z d => some (p, .assertZone z d)
  | .proceed p t => some (p, .proceed t)
  | .breakLoop p t => some (p, .breakLoop t)
  | .resetSwitch p n => some (p, .resetSwitch n)
  | .dispatch p z => some (p, .dispatch z)
  | .cancelDispatch p z => some (p, .cancelDispatch z)
  | .move p z => some (p, .move z)
  | .requestSection p zs w => some (p, .requestSection zs w)
  | .cancelSection p => some (p, .cancelSection)
  | .returnSection p ds => some (p, .returnSection ds)
  | .setHold p z r => some (p, .setHold z r)
  | .moveSwitch p n q => some (p, .moveSwitch n q)
  | .entrySensorChange _ _ | .passageGapExpiry _ | .passageLimitExpiry _ | .stopSensorChange _ _
  | .holdFeedbackChange _ _ | .holdConfirmExpiry _ | .readyChange _ _ | .estopLineChange _ _ | .estopClearExpiry
  | .switchPositionChange _ _ _ | .moveArrival _ | .moveLimitExpiry _ | .settleExpiry _ | .dwellExpiry _
  | .departureWindowExpiry _ | .travelLimitExpiry _ | .claimWaitExpiry _ | .leaseExpiry _ | .occupancySample => none

/-- A well-formed row: its command fits a frame, and a read frame clocks at least its kind byte. Every event is
well formed, since its operands are numbers of existing objects. -/
def Instr.wf (i : Instr) : Bool :=
  match i.command, i with
  | some (_, c), _ => c.wf
  | none, .readFrame _ n => decide (0 < n)
  | none, .repeatFrame _ n => decide (0 < n)
  | none, _ => true

end Sys2Proof
end

