-- ==== Sys2Proof/Decode.lean ====
section
/-! DEFINITION. Reading a command from its code and parameter bytes (Table 11-2, R171, R179, R180), the bytes of a command,
and `decodeTableWord`: no row of opcode_table.json gives bits. -/

namespace Sys2Proof

/-! ### Command codes (Table 11-2) -/

/-- The code of a command (Table 11-2). -/
def commandCode : Command → Nat
  | .ping => 1
  | .readStatus => 2
  | .readZone _ => 3
  | .readTrain _ _ => 4
  | .readSwitch _ => 5
  | .readClaim _ _ => 6
  | .readStep _ _ => 7
  | .setMask _ => 8
  | .loadZone _ _ => 16
  | .loadSwitch _ _ => 17
  | .loadPort _ _ => 18
  | .loadGlobals _ _ _ => 19
  | .commit => 20
  | .uncommit => 21
  | .loadStep _ _ _ => 24
  | .sealRoute _ _ _ => 25
  | .clearRoute _ => 26
  | .setMode _ => 32
  | .restart => 33
  | .setLease _ _ _ => 34
  | .forceLapse _ => 35
  | .placeTrain _ _ _ _ => 40
  | .assignRoute _ _ _ => 41
  | .retireTrain _ _ => 42
  | .assertZone _ _ => 43
  | .proceed _ => 44
  | .breakLoop _ => 45
  | .resetSwitch _ => 46
  | .dispatch _ => 48
  | .cancelDispatch _ => 49
  | .move _ => 50
  | .requestSection _ _ => 56
  | .cancelSection => 57
  | .returnSection _ => 58
  | .setHold _ _ => 59
  | .moveSwitch _ _ => 60

/-! ### Parameters (R179, R180) -/

/-- A byte that may say "absent": 0xFF is none (R179). -/
def optionalByte (n : Nat) : Option Nat := if n = 255 then none else some n

/-- The exit byte of LOAD_ZONE: the unused bits must be zero (Table 13-7, R180). -/
def exitOfByte (n : Nat) : Option Exit :=
  if h : n < 32 then some (.zone ⟨n, h⟩)
  else if h : 128 ≤ n ∧ n < 132 then some (.switch ⟨n - 128, by omega⟩) else none

/-- The kind byte of LOAD_ZONE, for a kind other than NONE (Table 13-7). -/
def zoneKindOfByte (n : Nat) : Option ZoneKind :=
  match n with
  | 1 => some .station
  | 2 => some .brake
  | 3 => some .lift
  | 4 => some .launch
  | 5 => some .storage
  | 6 => some .run
  | _ => none

/-- The fields of LOAD_ZONE behind the zone byte (Table 13-7). With the kind NONE no other byte is examined (R180). -/
def zoneParams : List Nat → Option (Option ZoneFields)
  | [kind, exit, polarity, settle, gap, limit, travel, window, ready, owner, wait] =>
    if kind = 0 then some none
    else
      match zoneKindOfByte kind, exitOfByte exit with
      | some k, some x =>
        if polarity < 4 then
          some (some { kind := k, exit := x, entryHigh := decide (polarity % 2 = 1), stopHigh := decide (2 ≤ polarity)
                       settle := settle, gap := gap, limit := limit, travel := travel, window := window
                       ready := optionalByte ready, owner := optionalByte owner, wait := wait })
        else none
      | _, _ => none
  | _ => none

/-- The kind byte of LOAD_SWITCH, for a kind other than NONE (R179). -/
def switchKindOfByte (n : Nat) : Option SwitchKind :=
  match n with
  | 1 => some .diverge
  | 2 => some .merge
  | _ => none

/-- The fields of LOAD_SWITCH behind the switch byte (R179). -/
def switchParams : List Nat → Option (Option SwitchFields)
  | [kind, root, straight, diverge, limit] =>
    if kind = 0 then some none
    else
      (switchKindOfByte kind).map fun k =>
        some { kind := k, root := root, straight := straight, diverge := diverge, moveLimit := limit }
  | _ => none

/-- The action byte of LOAD_STEP (Table 13-8). -/
def actionOfByte (n : Nat) : Option (Option Action) :=
  match n with
  | 0 => some none
  | 1 => some (some .pass)
  | 2 => some (some .hold)
  | 3 => some (some .dispatch)
  | 4 => some (some .park)
  | _ => none

/-- The opener of LOAD_STEP; a count or an end step that the opener does not use must be zero (Table 13-8, R180, log 11). -/
def openerOfBytes (opener count endStep : Nat) : Option (Option (OpenerKind × Nat)) :=
  match opener with
  | 0 => if count = 0 ∧ endStep = 0 then some none else none
  | 1 => some (some (.counted count, endStep))
  | 2 => if count = 0 then some (some (.forever, endStep)) else none
  | _ => none

/-- The fields of LOAD_STEP behind the route and step bytes (Table 13-8); the opener is examined with every action, NONE
included (R78, R180, log 11). -/
def stepParams : List Nat → Option StepFields
  | [zone, action, dwell, opener, count, endStep] =>
    match actionOfByte action, openerOfBytes opener count endStep with
    | some a, some o => some { zone := zone, action := a, dwell := dwell, opener := o }
    | _, _ => none
  | _ => none

/-- The route option of PLACE_TRAIN: a code, a route and a step. A code outside these, and with
none and keep a route or step other than 0xFF, is refused as R180 has it, ahead of the command's rule (log 10). -/
def routeOptionOfBytes (option route step : Nat) : Option RouteOption :=
  match option with
  | 0 => if route = 255 ∧ step = 255 then some .none else none
  | 1 => if route = 255 ∧ step = 255 then some .keep else none
  | 2 => some (.at route step)
  | _ => none

/-- One declaration of RETURN_SECTION: a zone, a code, and a train. A code outside these, and with
EMPTY a train other than 0xFF, is refused as R180 has it, ahead of the command's rule (log 10). -/
def declarationOfBytes (zone code train : Nat) : Option (Nat × Declared) :=
  match code with
  | 1 => if train = 255 then some (zone, .empty) else none
  | 2 => some (zone, .train train)
  | _ => none

/-- The declarations of RETURN_SECTION behind their count. -/
def declarationParams : Nat → List Nat → Option (List (Nat × Declared))
  | 0, [] => some []
  | n + 1, z :: c :: t :: rest =>
    match declarationOfBytes z c t, declarationParams n rest with
    | some d, some ds => some (d :: ds)
    | _, _ => none
  | _, _ => none

/-- The parameters of REQUEST_SECTION behind the count: that many zones, and the wait limit (log 10). -/
def requestParams : Nat → List Nat → Option Command
  | n, xs =>
    match xs.drop n with
    | [w] => some (.requestSection (xs.take n) (optionalByte w))
    | _ => none

/-- A flag byte: bit 0 alone is used (R180). -/
def flagOfByte (n : Nat) : Option Bool :=
  match n with
  | 0 => some false
  | 1 => some true
  | _ => none

/-- The command a code and its parameter bytes make; none where R171 and R180 refuse it: the code is unknown, the
parameter count does not match, or the encoding is broken. -/
def decodeCommand (code : Nat) (ps : List Nat) : Option Command :=
  match code, ps with
  | 1, [] => some .ping
  | 2, [] => some .readStatus
  | 3, [z] => some (.readZone z)
  | 4, [t] => some (.readTrain t 0)
  | 4, [t, k] => some (.readTrain t k)
  | 5, [n] => some (.readSwitch n)
  | 6, [i] => some (.readClaim i 0)
  | 6, [i, k] => some (.readClaim i k)
  | 7, [r, s] => some (.readStep r s)
  | 8, [m] => if m < 128 then some (.setMask m) else none
  | 16, z :: xs => (zoneParams xs).map (.loadZone z)
  | 17, n :: xs => (switchParams xs).map (.loadSwitch n)
  | 18, [p, r] => some (.loadPort p r)
  | 19, [b, c, l] => some (.loadGlobals b c l)
  | 20, [] => some .commit
  | 21, [] => some .uncommit
  | 24, r :: s :: xs => (stepParams xs).map (.loadStep r s)
  | 25, [r, n, w] => (flagOfByte w).map (.sealRoute r n)
  | 26, [r] => some (.clearRoute r)
  | 32, [m] => some (.setMode m)
  | 33, [] => some .restart
  | 34, [p, n, u] => some (.setLease p n u)
  | 35, [p] => some (.forceLapse p)
  | 40, [t, z, g, o, r, s] => (routeOptionOfBytes o r s).map (.placeTrain t z g)
  | 41, [t, r, s] => some (.assignRoute t r s)
  | 42, [t, d] => some (.retireTrain t d)
  | 43, [z, d] => some (.assertZone z d)
  | 44, [t] => some (.proceed t)
  | 45, [t] => some (.breakLoop t)
  | 46, [n] => some (.resetSwitch n)
  | 48, [z] => some (.dispatch z)
  | 49, [z] => some (.cancelDispatch z)
  | 50, [z] => some (.move z)
  | 56, n :: xs => requestParams n xs
  | 57, [] => some .cancelSection
  | 58, n :: xs => (declarationParams n xs).map .returnSection
  | 59, [z, r] => some (.setHold z r)
  | 60, [n, q] => some (.moveSwitch n q)
  | _, _ => none

/-! ### The parameter bytes of a command -/

/-- An optional byte. -/
def byteOfOptional (x : Option Nat) : Nat := x.getD 255

/-- The exit byte of LOAD_ZONE (Table 13-7). -/
def byteOfExit : Exit → Nat
  | .zone z => z.val
  | .switch n => 128 + n.val

/-- The kind byte of LOAD_ZONE (Table 13-7). -/
def byteOfZoneKind : ZoneKind → Nat
  | .station => 1
  | .brake => 2
  | .lift => 3
  | .launch => 4
  | .storage => 5
  | .run => 6

/-- The polarity byte of LOAD_ZONE (Table 13-7). -/
def byteOfPolarities (entryHigh stopHigh : Bool) : Nat := (if entryHigh then 1 else 0) + if stopHigh then 2 else 0

/-- The bytes of LOAD_ZONE behind the zone byte (Table 13-7). -/
def zoneBytes : Option ZoneFields → List Nat
  | none => [0, 0, 0, 0, 0, 0, 0, 0, 0, 0, 0]
  | some f =>
    [byteOfZoneKind f.kind, byteOfExit f.exit, byteOfPolarities f.entryHigh f.stopHigh, f.settle, f.gap, f.limit,
     f.travel, f.window, byteOfOptional f.ready, byteOfOptional f.owner, f.wait]

/-- The kind byte of LOAD_SWITCH (R179). -/
def byteOfSwitchKind : SwitchKind → Nat
  | .diverge => 1
  | .merge => 2

/-- The bytes of LOAD_SWITCH behind the switch byte (R179). -/
def switchBytes : Option SwitchFields → List Nat
  | none => [0, 0, 0, 0, 0]
  | some f => [byteOfSwitchKind f.kind, f.root, f.straight, f.diverge, f.moveLimit]

/-- The action byte of LOAD_STEP (Table 13-8). -/
def byteOfAction : Option Action → Nat
  | none => 0
  | some .pass => 1
  | some .hold => 2
  | some .dispatch => 3
  | some .park => 4

/-- The opener, count and end step bytes of LOAD_STEP (Table 13-8). -/
def bytesOfOpener : Option (OpenerKind × Nat) → List Nat
  | none => [0, 0, 0]
  | some (.counted n, e) => [1, n, e]
  | some (.forever, e) => [2, 0, e]

/-- The bytes of LOAD_STEP behind the route and step bytes (Table 13-8). -/
def stepBytes (f : StepFields) : List Nat := [f.zone, byteOfAction f.action, f.dwell] ++ bytesOfOpener f.opener

/-- The route option of PLACE_TRAIN (log 10). -/
def bytesOfRouteOption : RouteOption → List Nat
  | .none => [0, 255, 255]
  | .keep => [1, 255, 255]
  | .at r s => [2, r, s]

/-- One declaration of RETURN_SECTION (log 10). -/
def bytesOfDeclaration (d : Nat × Declared) : List Nat :=
  match d.2 with
  | .empty => [d.1, 1, 255]
  | .train n => [d.1, 2, n]

/-- The parameter bytes of a command, in the order its rule and chapter 13 give. READ_TRAIN and READ_CLAIM are written with
their skip count. -/
def commandBytes : Command → List Nat
  | .ping | .readStatus | .commit | .uncommit | .restart | .cancelSection => []
  | .readZone z => [z]
  | .readTrain t k => [t, k]
  | .readSwitch n => [n]
  | .readClaim i k => [i, k]
  | .readStep r s => [r, s]
  | .setMask m => [m]
  | .loadZone z f => z :: zoneBytes f
  | .loadSwitch n f => n :: switchBytes f
  | .loadPort p r => [p, r]
  | .loadGlobals b c l => [b, c, l]
  | .loadStep r s f => r :: s :: stepBytes f
  | .sealRoute r n w => [r, n, if w then 1 else 0]
  | .clearRoute r => [r]
  | .setMode m => [m]
  | .setLease p n u => [p, n, u]
  | .forceLapse p => [p]
  | .placeTrain t z g o => [t, z, g] ++ bytesOfRouteOption o
  | .assignRoute t r s => [t, r, s]
  | .retireTrain t d => [t, d]
  | .assertZone z d => [z, d]
  | .proceed t => [t]
  | .breakLoop t => [t]
  | .resetSwitch n => [n]
  | .dispatch z => [z]
  | .cancelDispatch z => [z]
  | .move z => [z]
  | .requestSection zs w => zs.length :: (zs ++ [byteOfOptional w])
  | .returnSection ds => ds.length :: ds.flatMap bytesOfDeclaration
  | .setHold z r => [z, r]
  | .moveSwitch n q => [n, q]

/-! ### The opcode table -/

/-- The command a word of the opcode table spells. No row of the table gives bits, so no word spells one. -/
def decodeTableWord (_nbits _w : Nat) : Option Instr := none

end Sys2Proof
end

