-- ==== Sys2Proof/Config.lean ====
section
/-! DEFINITION. Sizes and periods the manual fixes, and the one free value: the order of the events of one millisecond. -/

namespace Sys2Proof.Config

/-- Commands a port's command queue holds at most (R167). -/
def commandQueueSize : Nat := 4

/-- Replies a port's reply queue holds at most (R167). -/
def replyQueueSize : Nat := 4

/-- Notices a port's notice queue holds at most (R167). -/
def noticeQueueSize : Nat := 8

/-- Claims the claim list holds at most (R93). -/
def claimListSize : Nat := 12

/-- Occupancy samples a zone's history holds at most (R26). -/
def historySize : Nat := 8

/-- Milliseconds between two occupancy samples (R26). -/
def samplePeriod : Nat := 250

/-- Milliseconds both ESTOP lines stay inactive before the stop is lifted (R158). -/
def estopClearTime : Nat := 500

/-- Bytes of a whole read frame (R169). -/
def readFrameLength : Nat := 35

/-- Content bytes of a record at most (R168, R169). -/
def recordLength : Nat := 30

/-- Zones of a footprint at most; a footprint that has grown to this many raises SHORT_ZONE (R48). -/
def footprintSize : Nat := 4

/-- DESIGN CHOICE (log 3): which of the events due in one millisecond is taken next. The manual allows every order
("either may be taken first"), so this is a free value: it has no body and nothing can evaluate it. It is applied to
the counter `choices` of State, which the step advances. -/
opaque dueChoice : Nat → Nat

end Sys2Proof.Config
end

