-- ==== Sys2Proof/Machine/State.lean ====
section
/-! DEFINITION. The state of the TD-3208: layout store, route store, input sampler, track (zone table, trackers, trains,
claims, switches, sections, mode), ports and timebase, as plain data. -/

namespace Sys2Proof.Machine

/-! ### Layout store (chapter 1) -/

/-- A stored zone layout record (Table 1-1). Fields that do not apply to the kind are not stored (R2). Times are the
programmed step counts. -/
structure ZoneLayout where
  kind : ZoneKind
  exit : Exit
  /-- true for ACTIVE_HIGH -/
  entryHigh : Bool
  /-- true for ACTIVE_HIGH; stored for stoppable zones -/
  stopHigh : Option Bool
  settle : Nat
  gap : Nat
  limit : Nat
  travel : Nat
  /-- stored for stoppable zones -/
  window : Option Nat
  ready : Option ReadyId
  owner : Option PortId
  /-- stored for STATION zones -/
  wait : Option Nat
deriving DecidableEq, Repr

/-- A stored switch layout record (Table 1-2). -/
structure SwitchLayout where
  kind : SwitchKind
  root : ZoneId
  straight : ZoneId
  diverge : ZoneId
  moveLimit : Nat
deriving DecidableEq, Repr

/-- The role of a port (Table 11-1). -/
inductive Role
  | supervisor | station | transfer | observer
deriving DecidableEq, Repr

/-- A switch and the position a leg requires of it (R14). -/
structure Requirement where
  switch : SwitchId
  position : Position
deriving DecidableEq, Repr

/-- A leg of the leg set (R14): its start zone, its zones in travel order and its switch requirements. -/
structure Leg where
  start : ZoneId
  zones : List ZoneId
  reqs : List Requirement
deriving DecidableEq, Repr

/-- The layout store (R1). -/
structure Layout where
  zones : Vector (Option ZoneLayout) 32
  switches : Vector (Option SwitchLayout) 4
  /-- The stored roles of CP1 to CP3; entry 0 is SUPERVISOR, which no command changes (R7). -/
  roles : Vector Role 4
  bypassLimit : Nat
  /-- steps of 50 ms -/
  holdConfirm : Nat
  lookBack : Nat
  committed : Bool
  legs : List Leg
deriving DecidableEq, Repr

/-! ### Route store (chapter 5) -/

/-- A step's action with the dwell a HOLD carries, in steps of 100 ms (Table 5-2). -/
inductive StepAction
  | pass
  | hold (dwell : Nat)
  | dispatch
  | park
deriving DecidableEq, Repr

/-- An opener (Table 5-2). -/
structure Opener where
  kind : OpenerKind
  endStep : StepId
deriving DecidableEq, Repr

/-- A step record (Table 5-2). -/
structure RouteStep where
  zone : ZoneId
  action : StepAction
  opener : Option Opener
deriving DecidableEq, Repr

/-- The state of a route, with the step count and WIDE of a sealed one (Table 5-1). -/
inductive RouteState
  | empty
  | draft
  | sealed (count : Nat) (wide : Bool)
deriving DecidableEq, Repr

/-- A route record (Table 5-1). -/
structure Route where
  state : RouteState
  slots : Vector (Option RouteStep) 16
deriving DecidableEq, Repr

/-! ### Input sampler (chapter 3) -/

/-- The field inputs (Table 3-1). -/
inductive InputId
  | entry (z : ZoneId)
  | stop (z : ZoneId)
  | feedback (z : ZoneId)
  | position (n : SwitchId) (input : Position)
  | ready (r : ReadyId)
  | estop (e : EstopId)
deriving DecidableEq, Repr

/-- What the sampler keeps of one input (R38, R39). Levels are wire levels, true for high. -/
structure Line where
  /-- the level on the wire -/
  pin : Bool
  /-- a run of three equal samples has come since the cold start -/
  established : Bool
  /-- the debounced level -/
  level : Bool
  /-- the level of the run in progress before establishment -/
  last : Bool
  /-- consecutive samples that differ from the debounced level; before establishment, the length of the run -/
  count : Nat
  /-- the level has changed in this millisecond and the change is not yet delivered to the input's owner -/
  due : Bool
deriving DecidableEq, Repr

/-- The lines of all field inputs. -/
structure Inputs where
  entry : Vector Line 32
  stop : Vector Line 32
  feedback : Vector Line 32
  straight : Vector Line 4
  diverge : Vector Line 4
  ready : Vector Line 4
  estop : Vector Line 2
deriving DecidableEq, Repr

/-! ### Zone table (chapter 2) and passage trackers (chapter 3) -/

/-- The faults that name a zone (Table 2-1). -/
inductive ZoneFault
  | intrusion | sensorMissed | sensorStuck | overdue | holdFailed
deriving DecidableEq, Repr

/-- A zone's state with the fields present in it (Table 2-1). -/
inductive ZoneState
  | clear
  | reserved (t : TrainId)
  | occupied (t : TrainId)
  /-- with the settle time remaining, in milliseconds -/
  | clearing (t : TrainId) (settle : Nat)
  | unknown
  | fault (k : ZoneFault)
  | handed (p : PortId)
deriving DecidableEq, Repr

/-- A hold: HELD is the brake closed, RELEASED the brake open. -/
inductive Hold
  | held | released
deriving DecidableEq, Repr

/-- The supervision of a hold's feedback (R30), with the confirm time remaining in milliseconds. -/
inductive Supervision
  | confirmed
  | awaiting (confirm : Nat)
  | disagree
deriving DecidableEq, Repr

/-- The hold fields of a stoppable zone. -/
structure Brake where
  hold : Hold
  supervision : Supervision
deriving DecidableEq, Repr

/-- A zone record (Table 2-1). The history is newest first; true is "occupied". -/
structure Zone where
  state : ZoneState
  /-- present for stoppable zones -/
  brake : Option Brake
  history : List Bool
deriving DecidableEq, Repr

/-- A passage tracker (R41); times in milliseconds. -/
inductive Tracker
  | idle
  | passing (silent : Bool) (limit : Nat) (gap : Option Nat)
  | stuck (gap : Option Nat)
deriving DecidableEq, Repr

/-! ### Train table (chapters 4 and 5) -/

/-- The states of a train (Table 4-2). -/
inductive TrainState
  | absent | stored | standing | claiming | cleared | running | halted | manual | lost
deriving DecidableEq, Repr

/-- The kind of a frame, with the remaining count of a COUNTED one (Table 5-4). -/
inductive FrameKind
  | counted (remaining : Nat)
  | forever
deriving DecidableEq, Repr

/-- A frame record (Table 5-4). -/
structure Frame where
  start : StepId
  endStep : StepId
  kind : FrameKind
  lap : Nat
  broken : Bool
deriving DecidableEq, Repr

/-- The frame operations of a step decision (R87). -/
inductive FrameOp
  | lapUp
  | countDown
  | pop
  | push (f : Frame)
deriving DecidableEq, Repr

/-- A step decision (R88): the target step and the frame operations, in the order of R87. -/
structure Decision where
  target : StepId
  ops : List FrameOp
deriving DecidableEq, Repr

/-- The origin of a LEG claim (Table 6-1). -/
inductive Origin
  | auto
  | dispatch (p : PortId)
  | move (p : PortId)
deriving DecidableEq, Repr

/-- A leg entry of an authority (Table 4-3). The decision is present until the leg starts. -/
structure LegEntry where
  start : ZoneId
  zones : List ZoneId
  started : Bool
  reqs : List Requirement
  target : StepId
  decision : Option Decision
  origin : Origin
  /-- MODEL's own: an onward claim was formed at the leg's grant (R60, R61, log 14) -/
  onward : Bool
deriving DecidableEq, Repr

/-- What a train that holds a route keeps of it (Table 4-1): route, cursor, frame stack (innermost last), stalled and
at-end. -/
structure Ride where
  route : RouteId
  cursor : StepId
  frames : List Frame
  stalled : Bool
  atEnd : Bool
deriving DecidableEq, Repr

/-- A train record (Table 4-1); times in milliseconds. -/
structure Train where
  state : TrainState
  /-- tail first -/
  footprint : List ZoneId
  /-- in travel order -/
  authority : List LegEntry
  ride : Option Ride
  tag : Nat
  sectionPort : Option PortId
  dwell : Option Nat
  departure : Option Nat
  travel : Option Nat
deriving DecidableEq, Repr

/-! ### Claims (chapter 6) -/

/-- The contents of a LEG claim (Table 6-1). -/
structure LegClaim where
  train : TrainId
  origin : Origin
  start : ZoneId
  zones : List ZoneId
  reqs : List Requirement
  decision : Decision
deriving DecidableEq, Repr

/-- The contents of a SECTION claim (Table 6-1). -/
structure SectionClaim where
  port : PortId
  zones : List ZoneId
  switches : List SwitchId
deriving DecidableEq, Repr

/-- The fixed contents of a claim, by its kind. -/
inductive ClaimBody
  | leg (c : LegClaim)
  | sectionOf (c : SectionClaim)
deriving DecidableEq, Repr

/-- The state of a claim, with the awaited switches of a SETTING one (Table 6-1). -/
inductive ClaimState
  | waiting
  | setting (awaited : List SwitchId)
deriving DecidableEq, Repr

/-- A claim record (Table 6-1). Its place, LIST or LINE, is which list of `Track` holds it. -/
structure Claim where
  seq : Byte
  body : ClaimBody
  state : ClaimState
  /-- milliseconds -/
  wait : Option Nat
  bypass : Nat
deriving DecidableEq, Repr

/-! ### Switches and sections (chapters 8 and 9) -/

/-- Whom a move serves (Table 8-1). -/
inductive Served
  | claim (seq : Byte)
  | port (p : PortId)
  | none
deriving DecidableEq, Repr

/-- A switch's state with the fields present in MOVING (Table 8-1). -/
inductive SwitchState
  | settled (q : Position)
  | moving (target : Position) (limit : Nat) (served : Served)
  | unknown
  | failed
deriving DecidableEq, Repr

/-- A switch record (Table 8-1). -/
structure Switch where
  state : SwitchState
  attempts : Nat
  sectionPort : Option PortId
  driveStraight : Bool
  driveDiverge : Bool
deriving DecidableEq, Repr

/-- The record of a held section (R137). -/
structure HeldSection where
  zones : List ZoneId
  switches : List SwitchId
  /-- one entry per stoppable zone of the section -/
  requests : List (ZoneId × Hold)
  yield : Bool
deriving DecidableEq, Repr

/-- A port's section record (R137). -/
inductive Section
  | none
  | claimed
  | held (h : HeldSection)
deriving DecidableEq, Repr

/-- The operating mode (R149). -/
inductive Mode
  | unconfigured | standby | operating | halted | estopped
deriving DecidableEq, Repr

/-- The track: everything the arbiter, the zone table, the train table, the switch, section and mode controllers and
the trackers hold. -/
structure Track where
  mode : Mode
  estopClear : Option Nat
  zones : Vector (Option Zone) 32
  trackers : Vector (Option Tracker) 32
  trains : Vector Train 8
  claims : List Claim
  line : List Claim
  nextSeq : Byte
  switches : Vector (Option Switch) 4
  sections : Vector Section 4
deriving DecidableEq, Repr

/-! ### Ports (chapter 11) -/

/-- The notices (Table 13-6). -/
inductive NoticeName
  | dispatchGranted | departed | dispatchExpired | dispatchAborted
  | arrived | routeEnd | stalled | atPark | moveGranted | moveAborted | trainRemoved
  | sectionGranted | sectionExpired | sectionWithdrawn | yield | passage | returnMismatch | sectionReturned
  | sectionRevoked
  | switchSet | switchRetry | switchAbandoned
  | intrusion | sensorMissed | shortZone | sensorStuck | overdue | holdFailed | supervisorLapsed | departureStalled
  | switchFailed | switchLost | holdStuck | sensorAnomaly
  | mode
  | leaseLapsed | leaseResumed
deriving DecidableEq, Repr

/-- The subject of a notice (R172). -/
inductive Subject
  | zone (z : ZoneId)
  | train (t : TrainId)
  | switch (n : SwitchId)
  | port (p : PortId)
  | mode (m : Mode)
deriving DecidableEq, Repr

/-- A notice without its timestamp: name, subject and the two detail bytes (Table 13-5). -/
structure Note where
  name : NoticeName
  subject : Subject
  detail1 : Byte
  detail2 : Byte
deriving DecidableEq, Repr

/-- A notice record (R172). -/
structure Notice where
  note : Note
  time : BitVec 32
deriving DecidableEq, Repr

/-- The reasons of a refused command (R171). -/
inductive Reason
  | role | mode | state | argument | locked | busy | notReady
deriving DecidableEq, Repr

/-- The subject of a failed validation (Table 13-4). -/
inductive CheckSubject
  | none
  | zone (z : ZoneId)
  | switch (n : SwitchId)
  | port (p : PortId)
  | step (s : StepId)
deriving DecidableEq, Repr

/-- The outcome of a command and what its reply carries beyond it (R171). -/
inductive ReplyBody
  | done (data : List Byte)
  | accepted
  | refused (r : Reason)
  | invalid (check : Nat) (subject : CheckSubject)
deriving DecidableEq, Repr

/-- A reply record (Table 13-4). -/
structure Reply where
  code : Byte
  body : ReplyBody
deriving DecidableEq, Repr

/-- A record a read frame returns (R169). -/
inductive Record
  | reply (r : Reply)
  | notice (n : Notice)
  | empty
deriving DecidableEq, Repr

/-- A command in a command queue (R167): its code, what the checks of R171 and R180 make of its parameters (`none`
where they refuse it), and its pre-lapse mark. -/
structure Queued where
  code : Byte
  command : Option Command
  preLapse : Bool
deriving DecidableEq, Repr

/-- The unit of a lease setting (Table 11-1). -/
inductive LeaseUnit
  | tenths | seconds
deriving DecidableEq, Repr

/-- A port record (Table 11-1). The mask and the summary hold class n at bit n − 1 (R178). -/
structure Port where
  role : Role
  commands : List Queued
  replies : List Reply
  notices : List Notice
  lastReturned : Option Record
  rejected : Bool
  mask : Byte
  summary : Byte
  overflow : Bool
  leaseCount : Nat
  leaseUnit : LeaseUnit
  leaseRemaining : Option Nat
  lapsed : Bool
  lapseSeen : Bool
  /-- the bytes shifted out in the port's last frame (log 17) -/
  dataOut : List Byte
deriving DecidableEq, Repr

/-! ### The whole machine -/

/-- The state of the TD-3208, and the queue of the commands that wait. -/
structure State where
  layout : Layout
  routes : Vector Route 8
  inputs : Inputs
  track : Track
  ports : Vector Port 4
  /-- milliseconds since the last cold or warm start (R172) -/
  time : Nat
  /-- a 250 ms boundary has come and its occupancy sample is not yet taken (R26) -/
  sampleDue : Bool
  /-- MODEL's own: how many free choices among due events have been drawn (log 3) -/
  choices : Nat
  /-- the commands that wait, first in, first out -/
  pending : List Instr
deriving DecidableEq, Repr

/-- Why the block stops. The spec names no event that stops it, so there is no reason and no constructor: the faults of
Table 10-2 are effects on the state (INVENTORY.md, Faults). -/
inductive Fault
deriving DecidableEq, Repr

/-- Why the model gives a command no meaning. Raised by no arm: every row has its meaning. -/
inductive Refusal
  /-- a row whose meaning is not written; safe, since nothing follows from it -/
  | notModelled (mnemonic : String)
deriving DecidableEq, Repr

/-! ### What one event works on -/

/-- What an event reads and does not change: the layout, the routes and the inputs. -/
structure Env where
  layout : Layout
  routes : Vector Route 8
  inputs : Inputs
deriving DecidableEq, Repr

/-- A notice an event posts, with the ports its posting rule names (R172). -/
structure Post where
  note : Note
  named : List PortId
deriving DecidableEq, Repr

/-- What an event changes: the track, and the notices posted so far, oldest first. The port controller queues them at
the end of the event, in this order (R172). -/
structure Work extends Track where
  posts : List Post
deriving DecidableEq, Repr

/-! ### Reset: the machine right after a cold start -/

/-- An input line after a cold start: nothing established (R39). The wire levels are a DESIGN CHOICE (log 6). -/
def Line.reset : Line :=
  { pin := false, established := false, level := false, last := false, count := 0, due := false }

/-- The input sampler after a cold start (R39). -/
def Inputs.reset : Inputs :=
  { entry := Vector.replicate 32 Line.reset, stop := Vector.replicate 32 Line.reset
    feedback := Vector.replicate 32 Line.reset, straight := Vector.replicate 4 Line.reset
    diverge := Vector.replicate 4 Line.reset, ready := Vector.replicate 4 Line.reset
    estop := Vector.replicate 2 Line.reset }

/-- The roles of the ports while nothing is loaded: CP0 SUPERVISOR, the others OBSERVER (R16, R177). -/
def Role.initial : Vector Role 4 := #v[.supervisor, .observer, .observer, .observer]

/-- The layout store after a cold start (R16). -/
def Layout.reset : Layout :=
  { zones := Vector.replicate 32 none, switches := Vector.replicate 4 none, roles := Role.initial
    bypassLimit := 0, holdConfirm := 4, lookBack := 3, committed := false, legs := [] }

/-- An EMPTY route (R75). -/
def Route.cleared : Route := { state := .empty, slots := Vector.replicate 16 none }

/-- An ABSENT train: every field but the state absent (R74). -/
def Train.gone : Train :=
  { state := .absent, footprint := [], authority := [], ride := none, tag := 0, sectionPort := none
    dwell := none, departure := none, travel := none }

/-- The track after a cold start: mode ESTOPPED with no clear remaining (R164), no zone, tracker or switch record
(R35, R46, R136), every train ABSENT (R74), no claim (R112), every section record NONE (R148). -/
def Track.reset : Track :=
  { mode := .estopped, estopClear := none, zones := Vector.replicate 32 none, trackers := Vector.replicate 32 none
    trains := Vector.replicate 8 Train.gone, claims := [], line := [], nextSeq := 0
    switches := Vector.replicate 4 none, sections := Vector.replicate 4 Section.none }

/-- A port record after a cold start (R177). The mask of CP0 admits every class, the others MODE alone. -/
def Port.reset (p : PortId) : Port :=
  { role := Role.initial[p], commands := [], replies := [], notices := [], lastReturned := none, rejected := false
    mask := if p = 0 then 0x7F else 0x20, summary := 0, overflow := false, leaseCount := 0, leaseUnit := .tenths
    leaseRemaining := none, lapsed := false, lapseSeen := false, dataOut := [] }

/-- The port records after a cold start. -/
def State.resetPorts : Vector Port 4 := #v[Port.reset 0, Port.reset 1, Port.reset 2, Port.reset 3]

/-- The machine right after reset: a cold start (R16, R35, R39, R46, R74, R84, R112, R136, R148, R164, R177). -/
def State.reset : State :=
  { layout := Layout.reset, routes := Vector.replicate 8 Route.cleared, inputs := Inputs.reset, track := Track.reset
    ports := State.resetPorts, time := 0, sampleDue := false, choices := 0, pending := [] }

end Sys2Proof.Machine
end

