-- ==== Sys2Proof/Machine/Ops.lean ====
section
/-! DEFINITION. The named operations on inputs, zone records, trains, switches, sections and posted notices that every
meaning is built from. -/

namespace Sys2Proof.Machine

/-! ### Numbers of objects, in ascending order -/

/-- All zone numbers. -/
def zoneIds : List ZoneId := List.finRange 32

/-- All train numbers. -/
def trainIds : List TrainId := List.finRange 8

/-- All switch numbers. -/
def switchIds : List SwitchId := List.finRange 4

/-- All port numbers. -/
def portIds : List PortId := List.finRange 4

/-- All route numbers. -/
def routeIds : List RouteId := List.finRange 8

/-- All step numbers. -/
def stepIds : List StepId := List.finRange 16

/-! ### Kinds and times -/

/-- STATION to STORAGE are stoppable; RUN is not (Table 1-1). -/
def stoppable : ZoneKind → Bool
  | .run => false
  | .station | .brake | .lift | .launch | .storage => true

/-- The settle time in milliseconds (Table 1-1). -/
def settleMs (z : ZoneLayout) : Nat := z.settle * 100

/-- The passage gap in milliseconds (Table 1-1). -/
def gapMs (z : ZoneLayout) : Nat := z.gap * 20

/-- The passage limit in milliseconds (Table 1-1). -/
def limitMs (z : ZoneLayout) : Nat := z.limit * 100

/-- The travel timer a zone starts: off when its travel limit is 0 (R68). -/
def travelMs (z : ZoneLayout) : Option Nat := if z.travel = 0 then none else some (z.travel * 100)

/-- The departure window in milliseconds (Table 1-1). -/
def windowMs (z : ZoneLayout) : Nat := z.window.getD 0 * 100

/-- The wait remaining of a DISPATCH claim formed at the zone: none when the limit is 0 (R108). -/
def dispatchWaitMs (z : ZoneLayout) : Option Nat :=
  match z.wait with
  | none => none
  | some n => if n = 0 then none else some (n * 1000)

/-- The hold confirm time in milliseconds (Table 1-3). -/
def confirmMs (l : Layout) : Nat := l.holdConfirm * 50

/-! ### Inputs (R37 to R39) -/

/-- The line of an input. -/
def inputLine (x : Inputs) : InputId → Line
  | .entry z => x.entry[z]
  | .stop z => x.stop[z]
  | .feedback z => x.feedback[z]
  | .position n .straight => x.straight[n]
  | .position n .diverge => x.diverge[n]
  | .ready r => x.ready[r]
  | .estop e => x.estop[e]

/-- The inputs with one line replaced. -/
def setInputLine (x : Inputs) (i : InputId) (l : Line) : Inputs :=
  match i with
  | .entry z => { x with entry := x.entry.set z l }
  | .stop z => { x with stop := x.stop.set z l }
  | .feedback z => { x with feedback := x.feedback.set z l }
  | .position n .straight => { x with straight := x.straight.set n l }
  | .position n .diverge => { x with diverge := x.diverge.set n l }
  | .ready r => { x with ready := x.ready.set r l }
  | .estop e => { x with estop := x.estop.set e l }

/-- The active level of an input, true for high (Table 3-1). A sensor whose slot is undefined, and any sensor while the
layout is uncommitted, has high as its active level (R37). DESIGN CHOICE (log 33, unsafe): so has the stop sensor of a RUN
zone of a committed layout, for which the manual gives no active level and the zone's record stores no polarity (R2). -/
def activeHigh (l : Layout) : InputId → Bool
  | .entry z => if l.committed then (l.zones[z].map (·.entryHigh)).getD true else true
  | .stop z => if l.committed then (l.zones[z].bind (·.stopHigh)).getD true else true
  | .feedback _ => true
  | .position _ _ => true
  | .ready _ => true
  | .estop _ => false

/-- Whether the safe level of an input, seen until its level is established, is active (R39). -/
def safeActive : InputId → Bool
  | .entry _ => true
  | .stop _ => true
  | .feedback _ => false
  | .position _ _ => false
  | .ready _ => false
  | .estop _ => true

/-- Whether an input is active at its debounced level, and until that is established at its safe level (R37, R39). -/
def inputActive (l : Layout) (x : Inputs) (i : InputId) : Bool :=
  if (inputLine x i).established then (inputLine x i).level == activeHigh l i else safeActive i

/-- Whether an input's owner has last been told that it is active: the debounced level, but for a change not yet delivered
(R38, R40). -/
def inputSeen (l : Layout) (x : Inputs) (i : InputId) : Bool := inputActive l x i != (inputLine x i).due

/-- Whether an input reads active in an event. -/
def Env.active (e : Env) (i : InputId) : Bool := inputActive e.layout e.inputs i

/-- An ESTOP line's level as the mode controller records it: as last delivered (R149). -/
def Env.estop (e : Env) (k : EstopId) : Bool := inputSeen e.layout e.inputs (.estop k)

/-- The position read from a switch's two inputs; none where it is ambiguous (R126). -/
def Env.positionRead (e : Env) (n : SwitchId) : Option Position :=
  match e.active (.position n .straight), e.active (.position n .diverge) with
  | true, false => some .straight
  | false, true => some .diverge
  | true, true => none
  | false, false => none

/-! ### Layout as an event reads it -/

/-- The layout record of a zone of the committed layout. -/
def Env.zone (e : Env) (z : ZoneId) : Option ZoneLayout := e.layout.zones[z]

/-- The owner port of a zone, if it has one. -/
def Env.owner (e : Env) (z : ZoneId) : Option PortId := (e.layout.zones[z]).bind (·.owner)

/-- The step record of a route, if its slot is loaded. -/
def Env.step (e : Env) (r : RouteId) (s : StepId) : Option RouteStep := (e.routes[r]).slots[s]

/-- The ports a notice of a zone's owner names: the supervisor and the owner, if there is one. -/
def supervisorAnd (p : Option PortId) : List PortId := 0 :: p.toList

/-! ### Notices -/

/-- An event posts a notice to the ports named. A detail the notice's table does not give is 0xFF (Table 13-5). -/
def Work.post (w : Work) (named : List PortId) (name : NoticeName) (subject : Subject) (d1 : Byte := 0xFF)
    (d2 : Byte := 0xFF) : Work :=
  { w with posts := w.posts ++ [{ note := { name := name, subject := subject, detail1 := d1, detail2 := d2 }, named := named }] }

/-! ### Zone records -/

/-- The state of a zone's record; none where the zone is undefined. -/
def Track.zoneState (w : Track) (z : ZoneId) : Option ZoneState := (w.zones[z]).map (·.state)

/-- A zone's record takes a new state, with the fields of that state; the others are dropped (R17). -/
def Work.setZone (w : Work) (z : ZoneId) (s : ZoneState) : Work :=
  { w with zones := w.zones.set z ((w.zones[z]).map fun r => { r with state := s }) }

/-- Several zones take the same new state. -/
def Work.setZones (w : Work) (zs : List ZoneId) (s : ZoneState) : Work := zs.foldl (fun w z => w.setZone z s) w

/-- The hold of a zone, of stoppable zones. -/
def Track.hold (w : Track) (z : ZoneId) : Option Hold := ((w.zones[z]).bind (·.brake)).map (·.hold)

/-- A zone's supervision is replaced, of stoppable zones. -/
def Work.setSupervision (w : Work) (z : ZoneId) (s : Supervision) : Work :=
  { w with zones := w.zones.set z ((w.zones[z]).map fun r =>
      { r with brake := r.brake.map fun b => { b with supervision := s } }) }

/-- A zone's tracker is replaced. -/
def Work.setTracker (w : Work) (z : ZoneId) (k : Tracker) : Work :=
  { w with trackers := w.trackers.set z ((w.trackers[z]).map fun _ => k) }

/-! ### Trains -/

/-- A train's record is replaced. -/
def Work.setTrain (w : Work) (t : TrainId) (r : Train) : Work := { w with trains := w.trains.set t r }

/-- A train's record is changed. -/
def Work.modifyTrain (w : Work) (t : TrainId) (f : Train → Train) : Work := w.setTrain t (f (w.trains[t]))

/-- The zones of an authority, in travel order (R57). -/
def Train.ahead (r : Train) : List ZoneId := r.authority.flatMap (·.zones)

/-- The zone a train rests in: its one footprint zone. -/
def Train.rest (r : Train) : Option ZoneId :=
  match r.footprint with
  | [z] => some z
  | _ => none

/-- A train is at rest in the states STORED, STANDING, CLAIMING and CLEARED (Table 4-2). -/
def Train.atRest (r : Train) : Bool :=
  match r.state with
  | .stored | .standing | .claiming | .cleared => true
  | .absent | .running | .halted | .manual | .lost => false

/-- The zone a train rests in, for a notice or an owner: its rest zone, else its head zone. -/
def Train.head (r : Train) : Option ZoneId := r.footprint.getLast?

/-- The step record of a train's cursor. -/
def Env.cursorStep (e : Env) (r : Train) : Option RouteStep := r.ride.bind fun d => e.step d.route d.cursor

/-- The action of a train's cursor step. -/
def Env.cursorAction (e : Env) (r : Train) : Option StepAction := (e.cursorStep r).map (·.action)

/-- Change what a train keeps of its route, where it holds one. -/
def Train.mapRide (r : Train) (f : Ride → Ride) : Train := { r with ride := r.ride.map f }

/-- Whether the stalled flag is set. -/
def Train.stalled (r : Train) : Bool := (r.ride.map (·.stalled)).getD false

/-- Whether the at-end flag is set. -/
def Train.atEnd (r : Train) : Bool := (r.ride.map (·.atEnd)).getD false

/-- A train's timers run no more. -/
def Train.dropTimers (r : Train) : Train := { r with dwell := none, departure := none, travel := none }

/-- The trains a held section lists: those MANUAL with its port as section port (R137). -/
def Track.manualTrains (w : Track) (p : PortId) : List TrainId :=
  trainIds.filter fun t => decide ((w.trains[t]).state = .manual) && decide ((w.trains[t]).sectionPort = some p)

/-! ### Switches -/

/-- A switch's record is changed. -/
def Work.modifySwitch (w : Work) (n : SwitchId) (f : Switch → Switch) : Work :=
  { w with switches := w.switches.set n ((w.switches[n]).map f) }

/-- The state of a switch's record; none where the switch is undefined. -/
def Track.switchState (w : Track) (n : SwitchId) : Option SwitchState := (w.switches[n]).map (·.state)

/-- A requirement is met by its switch being settled in the position (R125). -/
def Track.settledIn (w : Track) (q : Requirement) : Bool :=
  match w.switches[q.switch] with
  | none => false
  | some s => decide (s.state = .settled q.position)

/-- A switch is MOVING. -/
def Switch.isMoving (s : Switch) : Bool :=
  match s.state with
  | .moving _ _ _ => true
  | .settled _ | .unknown | .failed => false

/-- A re-read of the position inputs (R126): the state is the position read, or UNKNOWN; attempt count 0; drives off. -/
def Switch.reread (s : Switch) (q : Option Position) : Switch :=
  { s with
    state := match q with
      | some p => .settled p
      | none => .unknown
    attempts := 0, driveStraight := false, driveDiverge := false }

/-- Near-side and far-side zones of each passage over a switch (R6). -/
def passages (l : SwitchLayout) : List (ZoneId × ZoneId) :=
  match l.kind with
  | .diverge => [(l.root, l.straight), (l.root, l.diverge)]
  | .merge => [(l.straight, l.root), (l.diverge, l.root)]

/-- A train locks a switch: its footprint holds a near-side and a far-side zone, or its authority holds a far-side
zone (R127). -/
def locks (l : SwitchLayout) (r : Train) : Bool :=
  (passages l).any fun q =>
    (decide (q.1 ∈ r.footprint) && decide (q.2 ∈ r.footprint)) || decide (q.2 ∈ r.ahead)

/-- The trains that lock a switch, in ascending number (R127, R135). -/
def lockingTrains (e : Env) (w : Track) (n : SwitchId) : List TrainId :=
  match e.layout.switches[n] with
  | none => []
  | some l => trainIds.filter fun t => locks l (w.trains[t])

/-- A switch is locked while any train locks it (R127). -/
def isLocked (e : Env) (w : Track) (n : SwitchId) : Bool :=
  match lockingTrains e w n with
  | [] => false
  | _ :: _ => true

/-- A move starts (R128): MOVING to the target, attempt count 0, the target drive on, the move limit running. -/
def startMove (e : Env) (n : SwitchId) (q : Position) (served : Served) (w : Work) : Work :=
  w.modifySwitch n fun s =>
    { s with
      state := .moving q (((e.layout.switches[n]).map (·.moveLimit)).getD 0 * 100) served
      attempts := 0, driveStraight := decide (q = .straight), driveDiverge := decide (q = .diverge) }

/-! ### Sections -/

/-- A port's held section, if it holds one (R137). -/
def Track.heldSection (w : Track) (p : PortId) : Option HeldSection :=
  match w.sections[p] with
  | .held h => some h
  | .none | .claimed => none

/-- A port's section record is replaced. -/
def Work.setSection (w : Work) (p : PortId) (r : Section) : Work := { w with sections := w.sections.set p r }

/-- The port's last SET_HOLD for a zone of its section (R137). -/
def HeldSection.request (h : HeldSection) (z : ZoneId) : Hold :=
  match h.requests.find? fun q => decide (q.1 = z) with
  | some q => q.2
  | none => .held

/-! ### An event at the state -/

/-- What an event reads of the state. -/
def State.env (s : State) : Env := { layout := s.layout, routes := s.routes, inputs := s.inputs }

/-- An event starts on the track with no notice posted. -/
def State.work (s : State) : Work := { toTrack := s.track, posts := [] }

/-- A port's record is changed. -/
def State.modifyPort (s : State) (p : PortId) (f : Port → Port) : State :=
  { s with ports := s.ports.set p (f (s.ports[p])) }

end Sys2Proof.Machine
end

