-- ==== Sys2Proof/Machine/Operands.lean ====
section
/-! DEFINITION. The operands of commands: range checks, and the named values a command carries as codes (R179, log 9). -/

namespace Sys2Proof.Machine

/-- A zone number in 0 to 31. -/
def zoneArg (n : Nat) : Option ZoneId := if h : n < 32 then some ⟨n, h⟩ else none

/-- A train number in 0 to 7. -/
def trainArg (n : Nat) : Option TrainId := if h : n < 8 then some ⟨n, h⟩ else none

/-- A switch number in 0 to 3. -/
def switchArg (n : Nat) : Option SwitchId := if h : n < 4 then some ⟨n, h⟩ else none

/-- A port number in 0 to 3. -/
def portArg (n : Nat) : Option PortId := if h : n < 4 then some ⟨n, h⟩ else none

/-- A route number in 0 to 7. -/
def routeArg (n : Nat) : Option RouteId := if h : n < 8 then some ⟨n, h⟩ else none

/-- A step number in 0 to 15. -/
def stepArg (n : Nat) : Option StepId := if h : n < 16 then some ⟨n, h⟩ else none

/-- A READY index in 0 to 3. -/
def readyArg (n : Nat) : Option ReadyId := if h : n < 4 then some ⟨n, h⟩ else none

/-- A port other than CP0. -/
def masterPortArg (n : Nat) : Option PortId :=
  match portArg n with
  | some p => if p = 0 then none else some p
  | none => none

/-- A number from `a` to `b`. -/
def inRange (a b n : Nat) : Bool := decide (a ≤ n) && decide (n ≤ b)

/-- The code of a role: its place in Table 11-1 (log 9). -/
def roleCode : Role → Nat
  | .supervisor => 1
  | .station => 2
  | .transfer => 3
  | .observer => 4

/-- The roles LOAD_PORT may give (R7). -/
def roleArg (n : Nat) : Option Role :=
  match n with
  | 2 => some .station
  | 3 => some .transfer
  | 4 => some .observer
  | _ => none

/-- The number of a mode in a field that chapter 13 does not lay out: its place in Table 10-1 (R179, log 9). The status byte
and the MODE notice have the codes of Table 13-3 instead. -/
def modeNumber : Mode → Nat
  | .unconfigured => 1
  | .standby => 2
  | .operating => 3
  | .halted => 4
  | .estopped => 5

/-- The modes SET_MODE may name (R159), each by its number (R179, log 9). -/
def modeArg (n : Nat) : Option Mode :=
  match n with
  | 2 => some .standby
  | 3 => some .operating
  | 4 => some .halted
  | _ => none

/-- The units of SET_LEASE (R175, log 9). -/
def unitArg (n : Nat) : Option LeaseUnit :=
  match n with
  | 1 => some .tenths
  | 2 => some .seconds
  | _ => none

/-- The code of a lease unit (log 9). -/
def unitCode : LeaseUnit → Nat
  | .tenths => 1
  | .seconds => 2

/-- What RETIRE_TRAIN does with a train (R71). -/
inductive Disposition
  | store | remove
deriving DecidableEq, Repr

/-- The dispositions of RETIRE_TRAIN (R71, log 9). -/
def dispositionArg (n : Nat) : Option Disposition :=
  match n with
  | 1 => some .store
  | 2 => some .remove
  | _ => none

/-- The hold requests of SET_HOLD (R142), by their places in Table 2-1 (log 9). -/
def holdArg (n : Nat) : Option Hold :=
  match n with
  | 1 => some .held
  | 2 => some .released
  | _ => none

/-- The positions of MOVE_SWITCH (R133), by their places in Table 8-1 (log 9). -/
def positionArg (n : Nat) : Option Position :=
  match n with
  | 1 => some .straight
  | 2 => some .diverge
  | _ => none

/-- What a command comes to: the state after it, and its reply. -/
abbrev Answer := State × ReplyBody

/-- A refused command changes nothing (R171). -/
def refuse (r : Reason) (s : State) : Answer := (s, .refused r)

/-- The command has had its whole effect, and carries nothing (R171). -/
def doneWith (s : State) : Answer := (s, .done [])

/-- The role in force of a port (R167). -/
def State.role (s : State) (p : PortId) : Role := (s.ports[p]).role

end Sys2Proof.Machine
end

