-- ==== Sys2Proof/Machine/Notices.lean ====
section
/-! DEFINITION. Codes and classes of notices, modes and states, and the MODE notice (Tables 13-3 to 13-6, R150, R178,
R179). -/

namespace Sys2Proof.Machine

/-- The classes of notices (R172). -/
inductive NoticeClass
  | dispatch | train | sectional | switch | fault | mode | port
deriving DecidableEq, Repr

/-- The class of a notice (Table 13-6). -/
def noticeClass : NoticeName → NoticeClass
  | .dispatchGranted | .departed | .dispatchExpired | .dispatchAborted => .dispatch
  | .arrived | .routeEnd | .stalled | .atPark | .moveGranted | .moveAborted | .trainRemoved => .train
  | .sectionGranted | .sectionExpired | .sectionWithdrawn | .yield | .passage | .returnMismatch | .sectionReturned
  | .sectionRevoked => .sectional
  | .switchSet | .switchRetry | .switchAbandoned => .switch
  | .intrusion | .sensorMissed | .shortZone | .sensorStuck | .overdue | .holdFailed | .supervisorLapsed
  | .departureStalled | .switchFailed | .switchLost | .holdStuck | .sensorAnomaly => .fault
  | .mode => .mode
  | .leaseLapsed | .leaseResumed => .port

/-- The class number of Table 13-5. -/
def classNumber : NoticeClass → Nat
  | .dispatch => 1
  | .train => 2
  | .sectional => 3
  | .switch => 4
  | .fault => 5
  | .mode => 6
  | .port => 7

/-- The notice codes of Table 13-6. -/
def noticeCode : NoticeName → Byte
  | .dispatchGranted => 0x10
  | .departed => 0x11
  | .dispatchExpired => 0x12
  | .dispatchAborted => 0x13
  | .arrived => 0x20
  | .routeEnd => 0x21
  | .stalled => 0x22
  | .atPark => 0x23
  | .moveGranted => 0x24
  | .moveAborted => 0x25
  | .trainRemoved => 0x26
  | .sectionGranted => 0x30
  | .sectionExpired => 0x31
  | .sectionWithdrawn => 0x32
  | .yield => 0x33
  | .passage => 0x34
  | .returnMismatch => 0x35
  | .sectionReturned => 0x36
  | .sectionRevoked => 0x37
  | .switchSet => 0x40
  | .switchRetry => 0x41
  | .switchAbandoned => 0x42
  | .intrusion => 0x50
  | .sensorMissed => 0x51
  | .shortZone => 0x52
  | .sensorStuck => 0x53
  | .overdue => 0x54
  | .holdFailed => 0x55
  | .supervisorLapsed => 0x56
  | .departureStalled => 0x57
  | .switchFailed => 0x58
  | .switchLost => 0x59
  | .holdStuck => 0x5A
  | .sensorAnomaly => 0x5B
  | .mode => 0x60
  | .leaseLapsed => 0x70
  | .leaseResumed => 0x71

/-- The mode codes of Table 13-3. -/
def modeCode : Mode → Nat
  | .unconfigured => 0
  | .standby => 1
  | .operating => 2
  | .halted => 3
  | .estopped => 4

/-- The subject number of a notice (Table 13-5); of a MODE notice, the new mode (R178). -/
def subjectNumber : Subject → Nat
  | .zone z => z.val
  | .train t => t.val
  | .switch n => n.val
  | .port p => p.val
  | .mode m => modeCode m

/-- A number below 256 as a byte. -/
def byteOf (n : Nat) : Byte := BitVec.ofNat 8 n

/-- A zone's state as a byte: its position in Table 2-1 (R179). -/
def zoneStateCode : ZoneState → Byte
  | .clear => 1
  | .reserved _ => 2
  | .occupied _ => 3
  | .clearing _ _ => 4
  | .unknown => 5
  | .fault _ => 6
  | .handed _ => 7

/-- A fault kind as a byte: its position in Table 2-1 (R179). -/
def zoneFaultCode : ZoneFault → Byte
  | .intrusion => 1
  | .sensorMissed => 2
  | .sensorStuck => 3
  | .overdue => 4
  | .holdFailed => 5

/-- A position as a byte: its place in Table 8-1 (R179). -/
def positionCode : Position → Byte
  | .straight => 1
  | .diverge => 2

/-- The position read from two inputs as a byte; ambiguous is the third reading of R126's table (log 12). -/
def readingCode : Option Position → Byte
  | some q => positionCode q
  | none => 3

/-- A switch's state as a byte: its position in Table 8-1 (R179). -/
def switchStateCode : SwitchState → Byte
  | .settled q => positionCode q
  | .moving _ _ _ => 3
  | .unknown => 4
  | .failed => 5

/-- Why the mode changes (R150), with what the notice names. -/
inductive ModeCause
  | commit
  | uncommit
  | setMode
  | fault (n : NoticeName)
  | estop (line0 line1 : Bool)
  | estopClear
  | warmStart
deriving DecidableEq, Repr

/-- The cause code of a MODE notice (R178). -/
def causeCode : ModeCause → Nat
  | .commit => 1
  | .uncommit => 2
  | .setMode => 3
  | .fault _ => 4
  | .estop _ _ => 5
  | .estopClear => 6
  | .warmStart => 7

/-- Byte 4 of a MODE notice: the fault's code, the ESTOP lines active, or 0xFF (R178). -/
def causeDetail : ModeCause → Byte
  | .fault n => noticeCode n
  | .estop true true => 3
  | .estop true false => 1
  | .estop false true => 2
  | .estop false false => 0xFF
  | .commit | .uncommit | .setMode | .estopClear | .warmStart => 0xFF

/-- The MODE notice of a change from mode `left` to the present mode, named to every port (R150, R178). -/
def postMode (left : Mode) (c : ModeCause) (w : Work) : Work :=
  w.post portIds .mode (.mode w.mode) (byteOf (modeCode left * 32 + causeCode c)) (causeDetail c)

end Sys2Proof.Machine
end

