-- ==== Sys2Proof/Machine/Flags.lean ====
section
/-! DEFINITION. The flags a port shows: notice masks and summaries, the routing of notices, the status byte, and the
output lines (R1, R29, R125, R170, R172, R178). -/

namespace Sys2Proof.Machine

/-! ### Masks (R178) -/

/-- The bit of a class in a mask: class n is bit n − 1 (R178). -/
def classBit (c : NoticeClass) : Byte := (1 : Byte) <<< (classNumber c - 1)

/-- A mask admits a class (R178). -/
def admits (mask : Byte) (c : NoticeClass) : Bool := mask.getLsbD (classNumber c - 1)

/-! ### Routing of notices (R172) -/

/-- A FAULT notice whose subject is a zone the port owns (Table 11-3). -/
def ownsSubject (l : Layout) (p : PortId) (x : Subject) : Bool :=
  match x with
  | .zone z => decide ((l.zones[z]).bind (·.owner) = some p)
  | .train _ => false
  | .switch _ => false
  | .port _ => false
  | .mode _ => false

/-- The notices a role entitles a port to beside those addressed to it (Table 11-3). -/
def entitled (l : Layout) (p : PortId) (r : Role) (n : Note) : Bool :=
  match r, noticeClass n.name with
  | .supervisor, .port => true
  | .station, .mode => true
  | .station, .fault => ownsSubject l p n.subject
  | .transfer, .mode => true
  | .transfer, .switch => true
  | .observer, .mode => true
  | .observer, .fault => true
  | _, _ => false

/-- A notice reaches a port: it is named or entitled, and its mask admits the class (R172). -/
def reaches (l : Layout) (p : PortId) (r : Port) (o : Post) : Bool :=
  (decide (p ∈ o.named) || entitled l p r.role o.note) && admits r.mask (noticeClass o.note.name)

/-- A notice is queued with its summary flag set, or dropped with overflow set when the queue holds 8 (R172). -/
def Port.queueNotice (r : Port) (n : Notice) : Port :=
  if r.notices.length < Config.noticeQueueSize then
    { r with notices := r.notices ++ [n], summary := r.summary ||| classBit (noticeClass n.note.name) }
  else { r with overflow := true }

/-- The timestamp of an event: the millisecond as a 32-bit number (R172). -/
def State.stamp (s : State) : BitVec 32 := BitVec.ofNat 32 s.time

/-- The notices an event posted reach one port, in the order they were posted (R172). -/
def deliverTo (l : Layout) (t : BitVec 32) (p : PortId) (posts : List Post) (r : Port) : Port :=
  posts.foldl (fun r o => if reaches l p r o then r.queueNotice { note := o.note, time := t } else r) r

/-- The notices an event posted reach the ports (R172). -/
def State.deliver (s : State) (posts : List Post) : State :=
  { s with ports := Vector.ofFn fun p => deliverTo s.layout s.stamp p posts (s.ports[p]) }

/-- What an event did to the track is put in place, and its notices reach the ports. -/
def State.put (s : State) (w : Work) : State := ({ s with track := w.toTrack }).deliver w.posts

/-- An event takes place on the track. -/
def State.run (s : State) (f : Env → Work → Work) : State := s.put (f s.env s.work)

/-! ### The status byte and the output lines (R170, R29, R125) -/

/-- The YIELD advisory of a port's section (R141). -/
def Track.yields (w : Track) (p : PortId) : Bool := ((w.heldSection p).map (·.yield)).getD false

/-- A flag as a bit at a place. -/
def bitAt (b : Bool) (k : Nat) : Nat := if b then 2 ^ k else 0

/-- The status byte (R170, Table 13-3). -/
def statusByte (w : Track) (p : PortId) (r : Port) : Byte :=
  BitVec.ofNat 8
    (modeCode w.mode * 32 + bitAt (!r.replies.isEmpty) 4 + bitAt (!r.notices.isEmpty) 3 +
      bitAt (decide (Config.commandQueueSize ≤ r.commands.length)) 2 + bitAt r.rejected 1 +
      bitAt (w.yields p || r.lapseSeen) 0)

/-- ATTN is asserted while the reply or the notice queue holds a record (R170). -/
def Port.attention (r : Port) : Bool := !r.replies.isEmpty || !r.notices.isEmpty

/-- The hold line of a zone channel; energised means RELEASED. A slot with no brake is driven HELD (R1, R29). -/
def Track.holdLine (w : Track) (z : ZoneId) : Bool := decide (w.hold z = some .released)

/-- The drive outputs of a switch channel, off where the slot is undefined (R1, R125). -/
def Track.driveLines (w : Track) (n : SwitchId) : Bool × Bool :=
  ((w.switches[n]).map fun s => (s.driveStraight, s.driveDiverge)).getD (false, false)

end Sys2Proof.Machine
end

