-- ==== Sys2Proof/Machine/Holds.lean ====
section
/-! DEFINITION. The hold release rule and the trains it sets CLEARED (R28, R29, R30, R65). -/

namespace Sys2Proof.Machine

/-- The authority holds whole the leg that starts at `z`, with every switch requirement settled (R28 (a), R57). -/
def holdsWholeLeg (w : Track) (r : Train) (z : ZoneId) : Bool :=
  r.authority.any fun g => decide (g.start = z) && !g.started && g.reqs.all w.settledIn

/-- Case (a) of the release rule (R28). -/
def trainReleases (w : Track) (z : ZoneId) : Bool :=
  decide (w.mode = .operating) &&
  trainIds.any fun t =>
    (decide (z ∈ (w.trains[t]).footprint) || decide (z ∈ (w.trains[t]).ahead)) && holdsWholeLeg w (w.trains[t]) z

/-- Case (b) of the release rule (R28). -/
def sectionReleases (w : Track) (z : ZoneId) : Bool :=
  match w.zoneState z with
  | some (.handed p) =>
    match w.heldSection p with
    | some h => decide (h.request z = .released) && !decide (w.mode = .estopped)
    | none => false
  | _ => false

/-- The hold the release rule gives a stoppable zone (R28). -/
def wantedHold (w : Track) (z : ZoneId) : Hold :=
  if trainReleases w z || sectionReleases w z then .released else .held

/-- A hold is commanded: a change puts the supervision into AWAITING with the full confirm time (R30); a hold whose value
does not change is not commanded again (R29). -/
def Brake.command (b : Brake) (confirm : Nat) (h : Hold) : Brake :=
  if b.hold = h then b else { hold := h, supervision := .awaiting confirm }

/-- The release rule applied afresh to one zone record. -/
def releaseZone (e : Env) (w : Track) (z : ZoneId) (r : Zone) : Zone :=
  { r with brake := r.brake.map fun b => b.command (confirmMs e.layout) (wantedHold w z) }

/-- The release rule applied afresh to every zone (R29). -/
def commandHolds (e : Env) (w : Work) : Work :=
  { w with zones := Vector.ofFn fun z => (w.zones[z]).map (releaseZone e w.toTrack z) }

/-- A CLAIMING or STANDING train at rest becomes CLEARED when its zone's hold is released under case (a): departure
remaining is the zone's window (R65). -/
def clearTrain (e : Env) (w : Track) (r : Train) : Train :=
  match r.state, r.rest with
  | .standing, some z | .claiming, some z =>
    if trainReleases w z then
      { r with state := .cleared, departure := some (((e.zone z).map windowMs).getD 0) }
    else r
  | _, _ => r

/-- R65 for every train. -/
def clearTrains (e : Env) (w : Work) : Work :=
  { w with trains := Vector.ofFn fun t => clearTrain e w.toTrack (w.trains[t]) }

/-- The release rule applied afresh, with the trains it clears (R29, R65). -/
def applyRelease (e : Env) (w : Work) : Work := clearTrains e (commandHolds e w)

end Sys2Proof.Machine
end

