-- ==== Sys2Proof/Machine/Route.lean ====
section
/-! DEFINITION. The route engine (chapter 5): frame operations, openers, and the selection of the next step. -/

namespace Sys2Proof.Machine

/-- Change the innermost frame, the last of the list. -/
def onInnermost (f : Frame → Frame) : List Frame → List Frame
  | [] => []
  | [x] => [f x]
  | x :: y :: rest => x :: onInnermost f (y :: rest)

/-- A lap is finished: the lap count rises, and stays at 65535 (R85, R90). -/
def Frame.lapUp (f : Frame) : Frame := { f with lap := min 65535 (f.lap + 1) }

/-- The remaining count of a COUNTED frame is decremented (R87). -/
def Frame.countDown (f : Frame) : Frame :=
  match f.kind with
  | .counted n => { f with kind := .counted (n - 1) }
  | .forever => f

/-- One frame operation on a frame stack (R90). -/
def applyFrameOp (fs : List Frame) : FrameOp → List Frame
  | .lapUp => onInnermost Frame.lapUp fs
  | .countDown => onInnermost Frame.countDown fs
  | .pop => fs.dropLast
  | .push f => fs ++ [f]

/-- The operations of a decision, in the order of R87 (R90). -/
def applyFrameOps (fs : List Frame) (ops : List FrameOp) : List Frame := ops.foldl applyFrameOp fs

/-- The frame an opener at step `s` pushes when `s` is reached by forward flow; none where the frame is skipped (R86). -/
def openerFrame (s : StepId) (wide : Bool) (o : Opener) : Option Frame :=
  match o.kind with
  | .forever => some { start := s, endStep := o.endStep, kind := .forever, lap := 0, broken := false }
  | .counted n =>
    if n = 0 then
      if wide then some { start := s, endStep := o.endStep, kind := .counted 256, lap := 0, broken := false } else none
    else some { start := s, endStep := o.endStep, kind := .counted n, lap := 0, broken := false }

/-- Forward flow reaches step `j` of a route of `count` steps: its opener is examined, and a skipped frame leads on past
its end step (R86). Gives the target step with the frame pushed, or none at the route's end (R89). The fuel bounds the
skips: each moves past a later end step. -/
def forwardTo (r : Route) (count : Nat) (wide : Bool) : Nat → Nat → Option (StepId × List FrameOp)
  | 0, _ => none
  | fuel + 1, j =>
    if h : j < 16 then
      if j < count then
        match (r.slots[j]).bind (·.opener) with
        | none => some (⟨j, h⟩, [])
        | some o =>
          match openerFrame ⟨j, h⟩ wide o with
          | some f => some (⟨j, h⟩, [.push f])
          | none => forwardTo r count wide fuel (o.endStep.val + 1)
      else none
    else none

/-- The most steps a skip can pass. -/
def skipFuel : Nat := 17

/-- End processing of the innermost frame `f` at its end step (R87, stage 1): the loop-back target, or none where the
frame is popped, with the operations so far. -/
def endProcessing (f : Frame) : Option StepId × List FrameOp :=
  match f.kind with
  | .forever => if f.broken then (none, [.lapUp, .pop]) else (some f.start, [.lapUp])
  | .counted n =>
    if 1 < n ∧ f.broken = false then (some f.start, [.lapUp, .countDown]) else (none, [.lapUp, .pop])

/-- A forward candidate with the operations of stage 1 (R87, stage 2). -/
def arriveForward (r : Route) (count : Nat) (wide : Bool) (j : Nat) (ops : List FrameOp) : Option Decision :=
  (forwardTo r count wide skipFuel j).map fun q => { target := q.1, ops := ops ++ q.2 }

/-- The selection of the next step from basis `i` with frame stack `fs` on a sealed route; none at the route's end
(R87, R89). -/
def selectStep (r : Route) (i : StepId) (fs : List Frame) : Option Decision :=
  match r.state with
  | .empty => none
  | .draft => none
  | .sealed count wide =>
    match fs.getLast? with
    | none => arriveForward r count wide (i.val + 1) []
    | some f =>
      if f.endStep = i then
        match endProcessing f with
        | (some s, ops) => some { target := s, ops := ops }
        | (none, ops) => arriveForward r count wide (i.val + 1) ops
      else arriveForward r count wide (i.val + 1) []

/-- The frame stack of a train placed or assigned at step `s`: emptied, then `s`'s opener applied as a forward arrival;
a skipped frame leaves the train at `s` with none pushed (R86). -/
def placedFrames (r : Route) (s : StepId) : List Frame :=
  match r.state with
  | .empty => []
  | .draft => []
  | .sealed _ wide =>
    match (r.slots[s]).bind (·.opener) with
    | none => []
    | some o => (openerFrame s wide o).toList

/-- The leg that joins two zones: the first of the leg set from `a` to `b` (R14). -/
def legBetween (l : Layout) (a b : ZoneId) : Option Leg :=
  l.legs.find? fun g => decide (g.start = a) && decide (g.zones.getLast? = some b)

/-- A route is held by the trains whose route field names it (R77). -/
def holders (w : Track) (r : RouteId) : List TrainId :=
  trainIds.filter fun t => decide (((w.trains[t]).ride.map (·.route)) = some r)

/-- Whether any train holds the route (R77). -/
def routeHeld (w : Track) (r : RouteId) : Bool :=
  match holders w r with
  | [] => false
  | _ :: _ => true

end Sys2Proof.Machine
end

