-- ==== Sys2Proof/Machine/Claims.lean ====
section
/-! DEFINITION. The claim list and line, the forming of LEG claims, the removal of leg entries and the withdrawal of
claims (R58, R59, R89, R92 to R96, R102, R109, R110), and the notices that end a dispatch or a move (R121, R123). -/

namespace Sys2Proof.Machine

/-! ### Claims -/

/-- The list and then the line, in arrival order (R94). -/
def Track.allClaims (w : Track) : List Claim := w.claims ++ w.line

/-- The claimant of a claim (Table 6-1). -/
def Claim.claimant (c : Claim) : Claimant :=
  match c.body with
  | .leg g => .train g.train
  | .sectionOf g => .port g.port

/-- The zones of a claim (Table 6-1). -/
def Claim.zones (c : Claim) : List ZoneId :=
  match c.body with
  | .leg g => g.zones
  | .sectionOf g => g.zones

/-- The switches of a claim: of its requirements, or its section switches (R96). -/
def Claim.switches (c : Claim) : List SwitchId :=
  match c.body with
  | .leg g => g.reqs.map (·.switch)
  | .sectionOf g => g.switches

/-- The claim is WAITING. -/
def Claim.isWaiting (c : Claim) : Bool :=
  match c.state with
  | .waiting => true
  | .setting _ => false

/-- The LEG claim of a train. -/
def Claim.legOf (c : Claim) (t : TrainId) : Option LegClaim :=
  match c.body with
  | .leg g => if g.train = t then some g else none
  | .sectionOf _ => none

/-- A LEG claim of the train. -/
def Claim.isLegOf (c : Claim) (t : TrainId) : Bool := (c.legOf t).isSome

/-- A LEG claim of the train whose leg starts at the zone. -/
def Claim.startsAt (c : Claim) (t : TrainId) (z : ZoneId) : Bool :=
  match c.legOf t with
  | some g => decide (g.start = z)
  | none => false

/-- The SECTION claim of a port. -/
def Claim.isSectionOf (c : Claim) (p : PortId) : Bool :=
  match c.body with
  | .leg _ => false
  | .sectionOf g => decide (g.port = p)

/-- Two lists have a member in common. -/
def meets {α : Type} [DecidableEq α] (a b : List α) : Bool := a.any fun x => decide (x ∈ b)

/-- Two claims overlap when they share a zone or a switch (R96). -/
def Claim.overlaps (c d : Claim) : Bool := meets c.zones d.zones || meets c.switches d.switches

/-- A claim and a held section overlap (R96). -/
def Claim.overlapsSection (c : Claim) (h : HeldSection) : Bool := meets c.zones h.zones || meets c.switches h.switches

/-- The same claim: no two claims in the list and the line are for the same claimant and the same leg (R95). -/
def Claim.same (c d : Claim) : Bool := decide (c.seq = d.seq) && decide (c.body = d.body)

/-- Replace the claims in arrival order: the list holds the first 12, the line the rest (R93, R94). -/
def Work.setClaims (w : Work) (cs : List Claim) : Work :=
  { w with claims := cs.take Config.claimListSize, line := cs.drop Config.claimListSize }

/-- A claim arrives: it takes the next sequence number, and enters the list, or the line when the list holds 12
(R93, R94). -/
def arriveClaim (body : ClaimBody) (wait : Option Nat) (w : Work) : Work :=
  let c : Claim := { seq := w.nextSeq, body := body, state := .waiting, wait := wait, bypass := 0 }
  if w.claims.length < Config.claimListSize then { w with claims := w.claims ++ [c], nextSeq := w.nextSeq + 1 }
  else { w with line := w.line ++ [c], nextSeq := w.nextSeq + 1 }

/-- A SETTING claim awaits the switch (Table 6-1). -/
def Claim.awaits (c : Claim) (n : SwitchId) : Bool :=
  match c.state with
  | .waiting => false
  | .setting ns => decide (n ∈ ns)

/-- A move of switch `n` that names the number `k` serves the claim: the SETTING claim of that number that awaits the switch.
Numbers wrap (R93), so the number alone may be another claim's as well (R101, R102; log 21). -/
def Claim.servedBy (c : Claim) (n : SwitchId) (k : Byte) : Bool := decide (c.seq = k) && c.awaits n

/-- The SETTING claim a move of switch `n` serves (R101, R102). -/
def servedClaim (w : Track) (n : SwitchId) (served : Served) : Option Claim :=
  match served with
  | .claim k => w.claims.find? fun c => c.servedBy n k
  | .port _ => none
  | .none => none

/-- A move of switch `n` that served one of these claims serves none (R129, R102, R110). -/
def unserveSwitch (cs : List Claim) (n : SwitchId) (s : Switch) : Switch :=
  match s.state with
  | .moving q l (.claim k) => if cs.any fun c => c.servedBy n k then { s with state := .moving q l .none } else s
  | _ => s

/-- Moves in progress that served these claims serve none. -/
def unserve (cs : List Claim) (w : Work) : Work :=
  { w with switches := Vector.ofFn fun n => (w.switches[n]).map (unserveSwitch cs n) }

/-- Claims leave the list or the line: the line moves up, and the moves that served them serve none (R94, R110). -/
def dropClaims (gone : Claim → Bool) (w : Work) : Work :=
  (unserve (w.allClaims.filter gone) w).setClaims (w.allClaims.filter fun c => !gone c)

/-- Change the claims in place, each keeping its position. -/
def mapClaims (f : Claim → Claim) (w : Work) : Work := { w with claims := w.claims.map f, line := w.line.map f }

/-! ### Leg entries (R57, R58) -/

/-- A zone reserved by the train becomes CLEAR (R19). -/
def unreserve (t : TrainId) (z : ZoneId) (w : Work) : Work :=
  if w.zoneState z = some (.reserved t) then w.setZone z .clear else w

/-- The destinations of leg entries. -/
def destinations (gs : List LegEntry) : List ZoneId := gs.filterMap (·.zones.getLast?)

/-- The leg entries from position `k` on are taken out of the authority: their zones become CLEAR, and every claim of
the train whose leg would begin at a removed destination leaves (R58). -/
def removeEntries (t : TrainId) (k : Nat) (w : Work) : Work :=
  let gone := (w.trains[t]).authority.drop k
  let w1 := (gone.flatMap (·.zones)).foldl (fun w z => unreserve t z w) w
  let w2 := w1.modifyTrain t fun r => { r with authority := r.authority.take k }
  dropClaims (fun c => (destinations gone).any fun z => c.startsAt t z) w2

/-- The position of the entry a granted claim appended: the entry with the claim's start zone (R100). The legs of one
authority are successive, so no two start at one zone. -/
def entryOf (r : Train) (g : LegClaim) : Nat := r.authority.findIdx fun q => decide (q.start = g.start)

/-- A SETTING LEG claim's leg entry is removed from its train's authority (R102, R110). -/
def releaseEntryOf (c : Claim) (w : Work) : Work :=
  match c.state, c.body with
  | .setting _, .leg g => removeEntries g.train (entryOf (w.trains[g.train]) g) w
  | _, _ => w

/-- A CLAIMING train with no claim left for the leg from its rest zone becomes STANDING (R110). -/
def standIfClaimless (t : TrainId) (w : Work) : Work :=
  w.modifyTrain t fun r =>
    match r.state, r.rest with
    | .claiming, some z => if w.allClaims.any fun c => c.startsAt t z then r else { r with state := .standing }
    | _, _ => r

/-- A claim is withdrawn, or expires (R108, R110). -/
def withdrawClaim (c : Claim) (w : Work) : Work :=
  let w1 := dropClaims (fun d => d.same c) (releaseEntryOf c w)
  match c.body with
  | .leg g => standIfClaimless g.train w1
  | .sectionOf _ => w1

/-- Claims chosen from the list and the line are withdrawn, the oldest first. -/
def withdrawAll (gone : Claim → Bool) (w : Work) : Work :=
  (w.allClaims.filter gone).foldl
    (fun w c => if w.allClaims.any fun d => d.same c then withdrawClaim c w else w) w

/-- A SETTING claim returns to WAITING: its leg entry is removed, its moves serve no claim, and it keeps its position,
sequence number, decision, wait and bypass count (R102, R103). -/
def returnToWaiting (c : Claim) (w : Work) : Work :=
  unserve [c] (mapClaims (fun d => if d.same c then { d with state := .waiting } else d) (releaseEntryOf c w))

/-- Every SETTING claim returns to WAITING, the oldest first (R103). -/
def returnAllToWaiting (w : Work) : Work :=
  (w.claims.filter fun c => !c.isWaiting).foldl
    (fun w c => if w.claims.any fun d => d.same c && !d.isWaiting then returnToWaiting c w else w) w

/-! ### Dispatches and moves in progress (R117, R121, R123) -/

/-- The origin of the dispatch or move in progress of a train at rest: of its claim for the leg from its rest zone while
CLAIMING, of its first leg entry while CLEARED (R117, R123). -/
def progressOrigin (w : Track) (t : TrainId) : Option Origin :=
  match (w.trains[t]).state, (w.trains[t]).rest with
  | .claiming, some z => ((w.allClaims.filterMap (·.legOf t)).find? fun g => decide (g.start = z)).map (·.origin)
  | .cleared, _ => ((w.trains[t]).authority.head?).map (·.origin)
  | _, _ => none

/-- The causes that end a dispatch or a move without departure (R121). -/
inductive AbortCause
  | ready | cancel | lapse | halt | standby | handover | retire | lost
deriving DecidableEq, Repr

/-- The code of a cause: its position in R121's list (log 12). -/
def abortCode : AbortCause → Byte
  | .ready => 1
  | .cancel => 2
  | .lapse => 3
  | .halt => 4
  | .standby => 5
  | .handover => 6
  | .retire => 7
  | .lost => 8

/-- DISPATCH_ABORTED or MOVE_ABORTED for an origin, to its port and the supervisor (R121, R123). -/
def postAbort (t : TrainId) (o : Option Origin) (cause : AbortCause) (w : Work) : Work :=
  match o with
  | some (.dispatch p) => w.post [0, p] .dispatchAborted (.train t) (abortCode cause)
  | some (.move p) => w.post [0, p] .moveAborted (.train t) (abortCode cause)
  | some .auto => w
  | none => w

/-! ### Forming LEG claims (R59, R89) -/

/-- What a formation occasion comes to. -/
inductive Formed
  /-- a claim is formed -/
  | claim (w : Work)
  /-- the route engine found the route's end -/
  | ended
  /-- no claim is formed (R59) -/
  | no
deriving DecidableEq, Repr

/-- The train has a pending claim: one in WAITING, in the list or the line (R59). -/
def hasPending (w : Track) (t : TrainId) : Bool := w.allClaims.any fun c => c.isLegOf t && c.isWaiting

/-- A formation occasion from basis `b` with frame stack `fs` (R59). No claim is formed outside OPERATING, for a train
with a pending claim, or with at-end or stalled set; DISPATCH, MOVE and PROCEED clear the stalled flag before. A target
that no leg joins to the basis does not arise on a sealed route (R82) and forms no claim (log 20). -/
def formClaim (e : Env) (t : TrainId) (b : StepId) (fs : List Frame) (o : Origin) (wait : Option Nat) (w : Work) :
    Formed :=
  match (w.trains[t]).ride with
  | none => .no
  | some d =>
    if w.mode ≠ .operating ∨ hasPending w.toTrack t = true ∨ d.atEnd = true ∨ d.stalled = true then .no
    else
      match selectStep (e.routes[d.route]) b fs with
      | none => .ended
      | some k =>
        match e.step d.route b, e.step d.route k.target with
        | some sb, some st =>
          match legBetween e.layout sb.zone st.zone with
          | some g =>
            .claim (arriveClaim (.leg { train := t, origin := o, start := g.start, zones := g.zones, reqs := g.reqs
                                        decision := k }) wait w)
          | none => .no
        | _, _ => .no

/-- A train at rest meets the route's end: at-end set, STANDING, ROUTE_END to the supervisor and the rest zone's owner
with the basis step as detail (R89). -/
def routeEnd (e : Env) (t : TrainId) (w : Work) : Work :=
  let r := w.trains[t]
  (w.setTrain t ({ r with state := .standing }.mapRide fun d => { d with atEnd := true })).post
    (supervisorAnd (r.rest.bind e.owner)) .routeEnd (.train t)
    (BitVec.ofNat 8 ((r.ride.map (·.cursor.val)).getD 255))

/-- A formation occasion for a train at rest, from its cursor step with its committed stack (R60, R88, R89): CLAIMING
when a claim is formed, the route's end recorded when it is found, else unchanged. -/
def formAtRest (e : Env) (t : TrainId) (o : Origin) (wait : Option Nat) (w : Work) : Work :=
  match (w.trains[t]).ride with
  | none => w
  | some d =>
    match formClaim e t d.cursor d.frames o wait w with
    | .claim w' => w'.modifyTrain t fun r => { r with state := .claiming }
    | .ended => routeEnd e t w
    | .no => w

/-- An onward occasion (R60, R88): a route's end is not recorded (R89). -/
def formOnward (e : Env) (t : TrainId) (b : StepId) (fs : List Frame) (w : Work) : Work :=
  match formClaim e t b fs .auto none w with
  | .claim w' => w'
  | .ended => w
  | .no => w

/-- A leg's target step is a PASS step: only towards such a step is an onward claim formed (R60, R76). -/
def targetIsPass (e : Env) (w : Track) (t : TrainId) (s : StepId) : Bool :=
  match (w.trains[t]).ride with
  | none => false
  | some d =>
    match e.step d.route s with
    | some k => decide (k.action = .pass)
    | none => false

end Sys2Proof.Machine
end

