-- ==== Sys2Proof/Machine/Arbiter.lean ====
section
/-! DEFINITION. The arbiter (chapter 6): grant conditions, grants, evaluation, the YIELD advisory, and the arrival of a
move, which completes claims (R97 to R107, R129, R140, R141). -/

namespace Sys2Proof.Machine

/-! ### Grant conditions -/

/-- A WAITING claim whose bypass count has reached the committed limit is barred, unless the limit is 0 (R107). -/
def barred (l : Layout) (c : Claim) : Bool :=
  c.isWaiting && decide (l.bypassLimit ≠ 0) && decide (l.bypassLimit ≤ c.bypass)

/-- A switch requirement is met: settled in position, or movable (R99, condition 3). -/
def requirementMet (e : Env) (w : Track) (q : Requirement) : Bool :=
  match w.switches[q.switch] with
  | none => false
  | some s =>
    s.sectionPort.isNone &&
    match s.state with
    | .settled p => if p = q.position then true else !isLocked e w q.switch
    | .unknown => !isLocked e w q.switch
    | .moving _ _ _ => false
    | .failed => false

/-- The grant conditions of a LEG claim but for the bar (R99, conditions 1 to 3). -/
def legGrantable (e : Env) (w : Track) (g : LegClaim) : Bool :=
  decide (w.mode = .operating) && g.zones.all (fun z => decide (w.zoneState z = some .clear)) &&
  g.reqs.all (requirementMet e w)

/-- A zone a SECTION claim may take: CLEAR, UNKNOWN, FAULT, or OCCUPIED by a train STANDING, CLAIMING or STORED
(R104, condition 2). -/
def handable (w : Track) (z : ZoneId) : Bool :=
  match w.zoneState z with
  | some .clear | some .unknown | some (.fault _) => true
  | some (.occupied t) =>
    match (w.trains[t]).state with
    | .standing | .claiming | .stored => true
    | .absent | .cleared | .running | .halted | .manual | .lost => false
  | some (.reserved _) | some (.clearing _ _) | some (.handed _) | none => false

/-- A switch is defined and MOVING. -/
def switchMoving (w : Track) (n : SwitchId) : Bool := ((w.switches[n]).map Switch.isMoving).getD false

/-- SECTION claims are granted in STANDBY, OPERATING and HALTED (R104, condition 1). -/
def sectionMode : Mode → Bool
  | .standby | .operating | .halted => true
  | .unconfigured | .estopped => false

/-- The grant conditions of a SECTION claim but for the bar (R104, conditions 1 to 3). -/
def sectionGrantable (w : Track) (g : SectionClaim) : Bool :=
  sectionMode w.mode && g.zones.all (handable w) && !(g.switches.any (switchMoving w))

/-- The scan reaches the claim at position `i` of the list: it is granted when it is WAITING, its conditions hold, and
no older overlapping claim is barred (R98, R99, R104). -/
def grantable (e : Env) (w : Track) (i : Nat) (c : Claim) : Bool :=
  c.isWaiting &&
  (match c.body with
    | .leg g => legGrantable e w g
    | .sectionOf g => sectionGrantable w g) &&
  !((w.claims.take i).any fun d => d.overlaps c && barred e.layout d)

/-! ### Grants -/

/-- The bypass counts of the older WAITING claims that overlap the granted one rise, to at most 7 (R106). -/
def raiseBypass (i : Nat) (c : Claim) (w : Work) : Work :=
  { w with claims :=
      ((w.claims.take i).map fun d =>
        if d.isWaiting && d.overlaps c then { d with bypass := min 7 (d.bypass + 1) } else d) ++ w.claims.drop i }

/-- The leg's zones become RESERVED and a leg entry is appended to the authority (R100, step 1). -/
def appendLeg (g : LegClaim) (w : Work) : Work :=
  (w.setZones g.zones (.reserved g.train)).modifyTrain g.train fun r =>
    { r with authority := r.authority ++
        [{ start := g.start, zones := g.zones, started := false, reqs := g.reqs, target := g.decision.target
           decision := some g.decision, origin := g.origin, onward := false }] }

/-- The switches of a leg that are not settled in position (R100, step 3). -/
def unsettled (w : Track) (g : LegClaim) : List Requirement := g.reqs.filter fun q => !w.settledIn q

/-- The claim is complete at once, or becomes SETTING (R100, step 4). -/
def settleOrWait (c : Claim) (awaited : List SwitchId) (w : Work) : Work :=
  match awaited with
  | [] => dropClaims (fun d => d.same c) w
  | _ :: _ => mapClaims (fun d => if d.same c then { d with state := .setting awaited } else d) w

/-- The leg entry of a grant keeps that its onward claim was formed then (R60, log 14). -/
def noteOnward (r : Train) : Train := { r with authority := r.authority.map fun q => { q with onward := true } }

/-- The onward claim at the grant of a leg to a PASS step that is the authority's only entry (R60; R100, step 6). -/
def onwardAtGrant (e : Env) (g : LegClaim) (w : Work) : Work :=
  match (w.trains[g.train]).authority, (w.trains[g.train]).ride with
  | [_], some d =>
    if targetIsPass e w.toTrack g.train g.decision.target then
      match formClaim e g.train g.decision.target (applyFrameOps d.frames g.decision.ops) .auto none w with
      | .claim w' => w'.modifyTrain g.train noteOnward
      | .ended => w
      | .no => w
    else w
  | _, _ => w

/-- DISPATCH_GRANTED or MOVE_GRANTED, with the leg's destination as detail (R121, R123; R100, step 7). -/
def postGrant (g : LegClaim) (w : Work) : Work :=
  let dest : Byte := match g.zones.getLast? with
    | some z => BitVec.ofNat 8 z.val
    | none => 0xFF
  match g.origin with
  | .dispatch p => w.post [0, p] .dispatchGranted (.train g.train) dest
  | .move p => w.post [0, p] .moveGranted (.train g.train) dest
  | .auto => w

/-- The grant of a LEG claim (R100). -/
def grantLeg (e : Env) (i : Nat) (c : Claim) (g : LegClaim) (w : Work) : Work :=
  let w1 := raiseBypass i c (appendLeg g w)
  let moves := unsettled w1.toTrack g
  let w2 := moves.foldl (fun w q => startMove e q.switch q.position (.claim c.seq) w) w1
  let w3 := applyRelease e (settleOrWait c (moves.map (·.switch)) w2)
  postGrant g (onwardAtGrant e g w3)

/-- A train at rest in a zone of the section becomes MANUAL: its claims leave, its authority is released, its timers and
footprint are dropped, its route and flags kept; a dispatch or move in progress is aborted (R105, step 2; R140). -/
def makeManual (p : PortId) (t : TrainId) (w : Work) : Work :=
  let o := progressOrigin w.toTrack t
  let w1 := postAbort t o .handover (withdrawAll (fun c => c.isLegOf t) w)
  (removeEntries t 0 w1).modifyTrain t fun r =>
    { r.dropTimers with state := .manual, footprint := [], sectionPort := some p }

/-- The trains at rest in zones of the claim, in ascending number (R105). -/
def trainsIn (w : Track) (zs : List ZoneId) : List TrainId :=
  trainIds.filter fun t => zs.any fun z => decide (w.zoneState z = some (.occupied t))

/-- The stoppable zones among these. -/
def stoppableZones (e : Env) (zs : List ZoneId) : List ZoneId :=
  zs.filter fun z => ((e.zone z).map fun r => stoppable r.kind).getD false

/-- The grant of a SECTION claim (R105, R140). -/
def grantSection (e : Env) (i : Nat) (c : Claim) (g : SectionClaim) (w : Work) : Work :=
  let w1 := raiseBypass i c w
  let w2 := (trainsIn w1.toTrack g.zones).foldl (fun w t => makeManual g.port t w) w1
  let w3 := w2.setZones g.zones (.handed g.port)
  let w4 := g.switches.foldl (fun w n => w.modifySwitch n fun s => { s with sectionPort := some g.port }) w3
  let w5 := (dropClaims (fun d => d.same c) w4).setSection g.port
    (.held { zones := g.zones, switches := g.switches
             requests := (stoppableZones e g.zones).map fun z => (z, Hold.held), yield := false })
  applyRelease e
    (w5.post [0, g.port] .sectionGranted (.port g.port) (BitVec.ofNat 8 g.zones.length))

/-- The grant of a claim at position `i`. -/
def grant (e : Env) (i : Nat) (c : Claim) (w : Work) : Work :=
  match c.body with
  | .leg g => grantLeg e i c g w
  | .sectionOf g => grantSection e i c g w

/-! ### Evaluation -/

/-- How many claims of the list lie before the scan after a grant at position `i`: those that were at or before `i` and
are still there. -/
def scannedAfter (before : List Claim) (i : Nat) (after : List Claim) : Nat :=
  (after.takeWhile fun d => (before.take (i + 1)).any fun c => c.same d).length

/-- The scans of one evaluation (R98): from the oldest claim to the youngest, granting on the way, and again from the
oldest after a scan that granted (`g`). The fuel bounds the claims judged; an evaluation makes at most one grant for
each claim, so it ends before (log 27). -/
def scanClaims (e : Env) : Nat → Nat → Bool → Work → Work
  | 0, _, _, w => w
  | fuel + 1, i, g, w =>
    match w.claims[i]? with
    | none => if g then scanClaims e fuel 0 false w else w
    | some c =>
      if grantable e w.toTrack i c then
        let w' := grant e i c w
        scanClaims e fuel (scannedAfter w.claims i w'.claims) true w'
      else scanClaims e fuel (i + 1) g w

/-- More than the claims one evaluation can judge. -/
def scanFuel : Nat := 1024

/-- The oldest WAITING claim of the list that overlaps a section (R141). -/
def oldestOverlap (w : Track) (h : HeldSection) : Option Claim :=
  w.claims.find? fun c => c.isWaiting && c.overlapsSection h

/-- The YIELD advisory of one port's section judged afresh: a change from clear to asserted posts YIELD (R141). -/
def judgeYieldOf (p : PortId) (w : Work) : Work :=
  match w.heldSection p with
  | none => w
  | some h =>
    match oldestOverlap w.toTrack h with
    | none => w.setSection p (.held { h with yield := false })
    | some c =>
      if h.yield then w
      else (w.setSection p (.held { h with yield := true })).post [p] .yield (.port p) c.seq

/-- The YIELD advisory of every section judged afresh (R141). -/
def judgeYield (w : Work) : Work := portIds.foldl (fun w p => judgeYieldOf p w) w

/-- One evaluation of the list, after an event has made all of its other changes (R97, R98), and the YIELD advisory
judged in the event (R141). -/
def evaluate (e : Env) (w : Work) : Work := judgeYield (scanClaims e scanFuel 0 false w)

end Sys2Proof.Machine
end

