-- ==== Sys2Proof/Machine/Trains.lean ====
section
/-! DEFINITION. Trains coming to rest, acting on their cursor step, departing and being lost (R22, R55, R61 to R68, R113,
R114, R122), and what closes an event (R29, R97). -/

namespace Sys2Proof.Machine

/-- A dwell ends: in OPERATING the train forms its claim (R114). -/
def endDwell (e : Env) (t : TrainId) (w : Work) : Work :=
  formAtRest e t .auto none (w.modifyTrain t fun r => { r with dwell := none })

/-- A dwell starts; one of 0 expires in the same event (R113). -/
def startDwell (e : Env) (t : TrainId) (steps : Nat) (w : Work) : Work :=
  if steps = 0 then endDwell e t w else w.modifyTrain t fun r => { r with dwell := some (steps * 100) }

/-- A train STANDING at its cursor step acts on it (R63 step 4, R69 step 4): a claim at a PASS step, the dwell at a HOLD
step, nothing at a DISPATCH step, AT_PARK at a PARK step (R122). -/
def actOnStep (e : Env) (t : TrainId) (w : Work) : Work :=
  match e.cursorAction (w.trains[t]) with
  | some .pass => formAtRest e t .auto none w
  | some (.hold d) => startDwell e t d w
  | some .dispatch => w
  | some .park =>
    match (w.trains[t]).rest with
    | some z => w.post (supervisorAnd (e.owner z)) .atPark (.train t) (byteOf z.val)
    | none => w
  | none => w

/-- The ARRIVED notice (R63). -/
def postArrived (e : Env) (t : TrainId) (z : ZoneId) (w : Work) : Work :=
  w.post (supervisorAnd (e.owner z)) .arrived (.train t) (byteOf z.val)

/-- The train has a claim of its own for the leg from `z` (R63, R64). -/
def hasClaimFrom (w : Track) (t : TrainId) (z : ZoneId) : Bool := w.allClaims.any fun c => c.startsAt t z

/-- A RUNNING train comes to rest at `z` (R63). -/
def restRunning (e : Env) (t : TrainId) (z : ZoneId) (w : Work) : Work :=
  let w1 := w.modifyTrain t fun r => { r with state := .standing, travel := none }
  let w2 := postArrived e t z (withdrawAll (fun c => c.isLegOf t && !c.startsAt t z) w1)
  if e.cursorAction (w2.trains[t]) = some .pass ∧ hasClaimFrom w2.toTrack t z = true then
    w2.modifyTrain t fun r => { r with state := .claiming }
  else actOnStep e t w2

/-- A HALTED train comes to rest at `z` (R64). -/
def restHalted (e : Env) (t : TrainId) (z : ZoneId) (w : Work) : Work :=
  let w1 := w.modifyTrain t fun r => { r with state := .standing, travel := none }
  let w2 := withdrawAll (fun c => c.isLegOf t && !c.startsAt t z) (removeEntries t 0 w1)
  let w3 := postArrived e t z w2
  if hasClaimFrom w3.toTrack t z then w3.modifyTrain t fun r => { r with state := .claiming }
  else actOnStep e t w3

/-- At-rest detection for one train: its footprint is a single stoppable zone whose hold is HELD and whose stop sensor is
active (R63, R64). -/
def restTrain (e : Env) (t : TrainId) (w : Work) : Work :=
  match (w.trains[t]).rest with
  | none => w
  | some z =>
    if e.active (.stop z) then
      match (w.trains[t]).state, w.hold z with
      | .running, some .held => restRunning e t z w
      | .halted, some .held => restHalted e t z w
      | _, _ => w
    else w

/-- At-rest detection for every train, in ascending number. -/
def restTrains (e : Env) (w : Work) : Work := trainIds.foldl (fun w t => restTrain e t w) w

/-- What closes an event that changed a footprint, an authority, a switch, the mode or a section: the release rule
applied afresh (R29), at-rest detection (R63), the release rule for what that changed, and one evaluation (R97). -/
def conclude (e : Env) (w : Work) : Work := evaluate e (applyRelease e (restTrains e (applyRelease e w)))

/-! ### Departure (R66) -/

/-- The DEPARTED notice, when the leg's origin is DISPATCH (R66, R121). -/
def postDeparted (t : TrainId) (g : Option LegEntry) (w : Work) : Work :=
  match g with
  | some x =>
    match x.origin with
    | .dispatch p => w.post [0, p] .departed (.train t) (byteOf x.start.val)
    | .move _ => w
    | .auto => w
  | none => w

/-- A CLEARED train departs from its rest zone `z`: RUNNING, no departure window, the travel timer of `z` (R66, R68). -/
def depart (e : Env) (t : TrainId) (z : ZoneId) (w : Work) : Work :=
  postDeparted t (w.trains[t]).authority.head?
    (w.modifyTrain t fun r =>
      { r with state := .running, departure := none, travel := (e.zone z).bind travelMs })

/-! ### Taking a train out of tracking (R22, R55) -/

/-- The record of a train made LOST: route, cursor, frames, at-end and tag kept; footprint, authority, stalled, timers and
section port dropped (R55). -/
def Train.toLost (r : Train) : Train :=
  { (r.dropTimers.mapRide fun d => { d with stalled := false }) with
    state := .lost, footprint := [], authority := [], sectionPort := none }

/-- A tracked train becomes LOST: its claims leave, a dispatch or move in progress is aborted, and every zone of its
footprint and authority becomes UNKNOWN (R22, R48, R109, R121). -/
def loseTrain (t : TrainId) (w : Work) : Work :=
  let r := w.trains[t]
  let w1 := postAbort t (progressOrigin w.toTrack t) .lost (dropClaims (fun c => c.isLegOf t) w)
  (w1.setZones (r.footprint ++ r.ahead) .unknown).modifyTrain t Train.toLost

/-- The train whose footprint or authority holds the zone, by its train field (R18). -/
def zoneTrain : ZoneState → Option TrainId
  | .reserved t => some t
  | .occupied t => some t
  | .clear | .clearing _ _ | .unknown | .fault _ | .handed _ => none

/-- The trains concerned in a fault that names these zones, each once (R22). -/
def trainsAt (w : Track) (zs : List ZoneId) : List TrainId :=
  trainIds.filter fun t => zs.any fun z => decide ((w.zoneState z).bind zoneTrain = some t)

/-- A faulted zone becomes FAULT; one already FAULT keeps its kind, and a HANDED one stays HANDED (R22). -/
def faultZone (k : ZoneFault) (z : ZoneId) (w : Work) : Work :=
  match w.zoneState z with
  | some (.fault _) => w
  | some (.handed _) => w
  | some _ => w.setZone z (.fault k)
  | none => w

/-- The zone and train outcomes of a fault that names zones (R22): the trains concerned become LOST, and each named zone
becomes FAULT. -/
def faultZones (k : ZoneFault) (zs : List ZoneId) (w : Work) : Work :=
  zs.foldl (fun w z => faultZone k z w) ((trainsAt w.toTrack zs).foldl (fun w t => loseTrain t w) w)

end Sys2Proof.Machine
end

