-- ==== Sys2Proof/Machine/Halts.lean ====
section
/-! DEFINITION. The ride halt, fault responses, ESTOP and the arrival of moves (R129, R134, R151 to R158). -/

namespace Sys2Proof.Machine

/-- A train at rest that holds leg entries loses them in a ride halt; a CLEARED one becomes STANDING, its dispatch or
move aborted with the cause HALT (R151, step 3). -/
def haltResting (t : TrainId) (w : Work) : Work :=
  let r := w.trains[t]
  match r.authority, r.rest, r.state with
  | g :: _, some z, .cleared =>
    let w1 := dropClaims (fun c => c.isLegOf t && !c.startsAt t z) (removeEntries t 0 w)
    postAbort t (some g.origin) .halt
      (w1.modifyTrain t fun r =>
        { (r.mapRide fun d => { d with stalled := false }) with state := .standing, departure := none })
  | _ :: _, some z, .standing | _ :: _, some z, .claiming =>
    dropClaims (fun c => c.isLegOf t && !c.startsAt t z) (removeEntries t 0 w)
  | _, _, _ => w

/-- Every RUNNING train becomes HALTED (R151 step 4, R152). -/
def haltRunning (w : Work) : Work :=
  { w with trains := w.trains.map fun r =>
      match r.state with
      | .running => { r with state := .halted }
      | _ => r }

/-- The ride halt up to the release rule, entering mode `m` (R151, steps 1 to 6). -/
def rideHalt (e : Env) (m : Mode) (w : Work) : Work :=
  applyRelease e
    (haltRunning (trainIds.foldl (fun w t => haltResting t w) (returnAllToWaiting { w with mode := m })))

/-- The response of a fault with a ride halt: in OPERATING and STANDBY the ride halt and its MODE notice, in the other
modes none (R154). -/
def respondHalt (e : Env) (n : NoticeName) (w : Work) : Work :=
  match w.mode with
  | .operating | .standby => postMode w.mode (.fault n) (rideHalt e .halted w)
  | .halted | .estopped | .unconfigured => w

/-- A fault with a ride halt is reported, and its response applied (R153). -/
def raiseHalt (e : Env) (n : NoticeName) (subject : Subject) (d1 d2 : Byte) (w : Work) : Work :=
  respondHalt e n (w.post [0] n subject d1 d2)

/-- A fault that names one zone: its outcomes (R22), its notice and its ride halt (R153). -/
def raiseAtZone (e : Env) (n : NoticeName) (k : ZoneFault) (z : ZoneId) (d1 : Byte) (w : Work) : Work :=
  raiseHalt e n (.zone z) d1 0xFF (faultZones k [z] w)

/-! ### Arrival of a move (R129) -/

/-- The ports that get the notices of a switch: the supervisor, and the section port a move serves (R133). -/
def servedPorts : Served → List PortId
  | .port p => [0, p]
  | .claim _ => [0]
  | .none => [0]

/-- A switch arrives for the claim its move serves: it leaves the claim's awaited switches, and at the last the claim is
complete and leaves the list (R101). -/
def arriveFor (n : SwitchId) (served : Served) (w : Work) : Work :=
  match servedClaim w.toTrack n served with
  | none => w
  | some c =>
    match c.state with
    | .waiting => w
    | .setting awaited =>
      match awaited.filter fun m => decide (m ≠ n) with
      | [] => dropClaims (fun d => d.same c) w
      | x :: xs => mapClaims (fun d => if d.same c then { d with state := .setting (x :: xs) } else d) w

/-- A move arrives: the switch settles in its target with its drives off, SWITCH_SET is posted, and the claim served is
told (R129). Nothing for a switch that is not MOVING. -/
def arrive (n : SwitchId) (w : Work) : Work :=
  match w.switchState n with
  | some (.moving q _ served) =>
    arriveFor n served
      ((w.modifySwitch n fun s =>
          { s with state := .settled q, attempts := 0, driveStraight := false, driveDiverge := false }).post
        (servedPorts served) .switchSet (.switch n) (positionCode q))
  | _ => w

/-- The position inputs of a MOVING switch show its target (R128, R129). -/
def atTarget (e : Env) (w : Track) (n : SwitchId) : Bool :=
  match w.switchState n with
  | some (.moving q _ _) => decide (e.positionRead n = some q)
  | _ => false

/-- The moves that have arrived at their start arrive, each as an event of its own directly after the event that started
it (R128; in ascending number, log 13). A move that was in progress before, whose inputs have been sampled at its target and not
yet delivered, arrives there as well, ahead of the other events of the same millisecond (R129; the model's choice, log 32). A
switch can do so once, so four rounds are enough. -/
def arrivals (e : Env) : Nat → Work → Work
  | 0, w => w
  | k + 1, w =>
    match switchIds.find? fun n => atTarget e w.toTrack n with
    | none => w
    | some n => arrivals e k (conclude e (arrive n w))

/-- What closes an event (R29, R63, R97), with the arrivals directly after it (R128). -/
def closeEvent (e : Env) (w : Work) : Work := arrivals e 4 (conclude e w)

/-- What closes an event that changed neither a footprint, an authority, a switch, the mode nor a section: one evaluation
(R97), with the arrivals directly after it (R128). -/
def closeEval (e : Env) (w : Work) : Work := arrivals e 4 (evaluate e w)

/-! ### Emergency stop (R156 to R158) -/

/-- A move in progress is abandoned: the drive off, the inputs re-read (R134). -/
def abandonMove (e : Env) (n : SwitchId) (w : Work) : Work := w.modifySwitch n fun s => s.reread (e.positionRead n)

/-- The state a re-read gives, as a notice's detail. -/
def rereadCode (q : Option Position) : Byte :=
  match q with
  | some p => positionCode p
  | none => switchStateCode .unknown

/-- Every move in progress is abandoned, with SWITCH_ABANDONED, in ascending switch number (R134, log 15). -/
def abandonAll (e : Env) (w : Work) : Work :=
  switchIds.foldl
    (fun w n =>
      if switchMoving w.toTrack n then
        (abandonMove e n w).post [0] .switchAbandoned (.switch n) (rereadCode (e.positionRead n))
      else w) w

/-- Every hold request of a section is HELD (R142). -/
def holdRequests (r : Section) : Section :=
  match r with
  | .held h => .held { h with requests := h.requests.map fun q => (q.1, Hold.held) }
  | .none => .none
  | .claimed => .claimed

/-- Entry into ESTOPPED (R157), with the lines active after the change. -/
def enterEstopped (e : Env) (line0 line1 : Bool) (w : Work) : Work :=
  if e.layout.committed then
    let w1 := abandonAll e (rideHalt e .estopped w)
    postMode w.mode (.estop line0 line1) (applyRelease e { w1 with sections := w1.sections.map holdRequests })
  else postMode w.mode (.estop line0 line1) { w with mode := .estopped }

end Sys2Proof.Machine
end

