-- ==== Sys2Proof/Machine/Passage.lean ====
section
/-! DEFINITION. Passage trackers, head events and tail events (chapter 3, R41 to R53, R61). -/

namespace Sys2Proof.Machine

/-! ### Head events -/

/-- The step decision of a leg that starts is committed to the frame stack (R90); a started leg has none (Table 4-3). -/
def commitDecision (g : LegEntry) (r : Train) : Train :=
  match g.decision with
  | some k => r.mapRide fun d => { d with frames := applyFrameOps d.frames k.ops }
  | none => r

/-- The onward claim at the start of leg `g`, `g` as it was before, where its target is a PASS step and none was formed at its grant
(R60; R61, step 4). -/
def onwardAtStart (e : Env) (t : TrainId) (g : LegEntry) (w : Work) : Work :=
  match (w.trains[t]).ride with
  | some d =>
    if !g.started && targetIsPass e w.toTrack t g.target && !g.onward then formOnward e t g.target d.frames w else w
  | none => w

/-- The head has entered zone `z`: it moves from the front of the authority to the head of the footprint, and becomes
OCCUPIED (R47). The first leg entry keeps its zones beyond `z`, and is started with its decision dropped (R61). -/
def advanceHead (t : TrainId) (z : ZoneId) (g : LegEntry) (gs : List LegEntry) (w : Work) : Work :=
  (w.setZone z (.occupied t)).modifyTrain t fun r =>
    { r with footprint := r.footprint ++ [z]
             authority := { g with zones := g.zones.tail, started := true, decision := none } :: gs }

/-- Departure seen at the head event of a CLEARED train (R66; R61, step 2). -/
def departAtHead (e : Env) (t : TrainId) (z0 : Option ZoneId) (w : Work) : Work :=
  match (w.trains[t]).state, z0 with
  | .cleared, some z => depart e t z w
  | _, _ => w

/-- The travel timer restarts for the new head zone (R68). -/
def restartTravel (e : Env) (t : TrainId) (z : ZoneId) (w : Work) : Work :=
  w.modifyTrain t fun r => { r with travel := (e.zone z).bind travelMs }

/-- At a leg's destination its entry leaves the authority, and the cursor takes the target step (R61). -/
def arriveAtDestination (t : TrainId) (g : LegEntry) (w : Work) : Work :=
  match g.zones.tail with
  | [] =>
    w.modifyTrain t fun r =>
      { (r.mapRide fun d => { d with cursor := g.target }) with authority := r.authority.drop 1 }
  | _ :: _ => w

/-- A head event at the first zone of the authority, `g` being its first entry (R47, R61). -/
def takeHead (e : Env) (t : TrainId) (z : ZoneId) (g : LegEntry) (gs : List LegEntry) (w : Work) : Work :=
  let z0 := (w.trains[t]).rest
  let w1 := (advanceHead t z g gs w).modifyTrain t (commitDecision g)
  arriveAtDestination t g (onwardAtStart e t g (restartTravel e t z (departAtHead e t z0 w1)))

/-- SHORT_ZONE is raised for the train, with its head zone as detail (R48, Table 10-2). -/
def raiseShort (e : Env) (t : TrainId) (head : Byte) (w : Work) : Work :=
  raiseHalt e .shortZone (.train t) head 0xFF w

/-- The check after the footprint has grown (R48). -/
def checkShort (e : Env) (t : TrainId) (z : ZoneId) (w : Work) : Work :=
  if (w.trains[t]).footprint.length = Config.footprintSize then raiseShort e t (byteOf z.val) w else w

/-- A head event that a full footprint cannot take: the train is LOST, and SHORT_ZONE is raised again (R48). -/
def overrunShort (e : Env) (t : TrainId) (w : Work) : Work :=
  raiseShort e t (((w.trains[t]).head.map fun z => byteOf z.val).getD 0xFF) (loseTrain t w)

/-- A head event past skipped zones (R49). -/
def missSensor (e : Env) (t : TrainId) (z : ZoneId) (w : Work) : Work :=
  match (w.trains[t]).ahead.takeWhile fun y => decide (y ≠ z) with
  | [] => w
  | y :: ys => raiseHalt e .sensorMissed (.zone y) (byteOf t.val) 0xFF (faultZones .sensorMissed (y :: ys) w)

/-- A head event that is an intrusion (R50). -/
def intrude (e : Env) (z : ZoneId) (s : ZoneState) (w : Work) : Work :=
  raiseAtZone e .intrusion .intrusion z (zoneStateCode s) w

/-- A train whose head may enter the first zone of its authority (R47). -/
def mayAdvance (r : Train) : Bool :=
  match r.state with
  | .cleared | .running | .halted => true
  | .absent | .stored | .standing | .claiming | .manual | .lost => false

/-- A head event at `z`, which lies in the authority of train `t` (R47 to R50). -/
def headInAuthority (e : Env) (t : TrainId) (z : ZoneId) (s : ZoneState) (w : Work) : Work :=
  match (w.trains[t]).authority with
  | [] => w
  | g :: gs =>
    if (w.trains[t]).ahead.head? = some z then
      if mayAdvance (w.trains[t]) then
        if Config.footprintSize ≤ (w.trains[t]).footprint.length then overrunShort e t w
        else checkShort e t z (takeHead e t z g gs w)
      else intrude e z s w
    else missSensor e t z w

/-- The train whose authority holds a zone; at most one (R18). -/
def authorityHolder (w : Track) (z : ZoneId) : Option TrainId := trainIds.find? fun t => decide (z ∈ (w.trains[t]).ahead)

/-- The train whose footprint holds a zone; at most one (R18). -/
def footprintHolder (w : Track) (z : ZoneId) : Option TrainId :=
  trainIds.find? fun t => decide (z ∈ (w.trains[t]).footprint)

/-- PASSAGE to the section's port: 1 for HEAD, 2 for TAIL (R53). -/
def postPassage (p : PortId) (z : ZoneId) (d : Byte) (w : Work) : Work := w.post [p] .passage (.zone z) d

/-- A head event at zone `z` (R47 to R50, R53). -/
def headEvent (e : Env) (z : ZoneId) (w : Work) : Work :=
  match w.zoneState z with
  | none => w
  | some (.handed p) => postPassage p z 1 w
  | some s =>
    match authorityHolder w.toTrack z with
    | some t => closeEvent e (headInAuthority e t z s w)
    | none => closeEvent e (intrude e z s w)

/-! ### Tail events -/

/-- A zone the tail has left: CLEARING with its settle time, or CLEAR at once when that is 0 (R20, R21). -/
def vacate (e : Env) (t : TrainId) (z : ZoneId) (w : Work) : Work :=
  match ((e.zone z).map settleMs).getD 0 with
  | 0 => w.setZone z .clear
  | n + 1 => w.setZone z (.clearing t (n + 1))

/-- A tail event at a footprint zone that is not the tail zone: the zones before it leave the footprint (R51). -/
def takeTail (e : Env) (t : TrainId) (z : ZoneId) (w : Work) : Work :=
  let f := (w.trains[t]).footprint
  let w1 := (f.takeWhile fun y => decide (y ≠ z)).foldl (fun w y => vacate e t y w) w
  w1.modifyTrain t fun r => { r with footprint := f.dropWhile fun y => decide (y ≠ z) }

/-- A tail event that leaves a RUNNING train with the single zone `z` of a PASS step, its hold RELEASED and its stop sensor
active, sets the train at rest there, CLEARED with the zone's departure window and no travel timer (R62, log 19). -/
def restReleased (e : Env) (t : TrainId) (z : ZoneId) (w : Work) : Work :=
  let r := w.trains[t]
  if r.state = .running ∧ r.rest = some z ∧ e.cursorAction r = some .pass ∧ w.hold z = some .released ∧
      e.active (.stop z) = true then
    w.setTrain t { r with state := .cleared, travel := none, departure := some (((e.zone z).map windowMs).getD 0) }
  else w

/-- SENSOR_ANOMALY with the zone's state as detail (R52). -/
def postAnomaly (z : ZoneId) (s : ZoneState) (w : Work) : Work :=
  w.post [0] .sensorAnomaly (.zone z) (zoneStateCode s)

/-- A tail event at zone `z` (R51 to R53). -/
def tailEvent (e : Env) (z : ZoneId) (w : Work) : Work :=
  match w.zoneState z with
  | none => w
  | some (.handed p) => postPassage p z 2 w
  | some s =>
    match footprintHolder w.toTrack z with
    | none => postAnomaly z s w
    | some t =>
      if (w.trains[t]).footprint.head? = some z then postAnomaly z s w
      else closeEvent e (restReleased e t z (takeTail e t z w))

/-! ### The trackers -/

/-- The passage gap of a zone's record. -/
def gapOf (e : Env) (z : ZoneId) : Nat := ((e.zone z).map gapMs).getD 0

/-- The passage limit of a zone's record. -/
def limitOf (e : Env) (z : ZoneId) : Nat := ((e.zone z).map limitMs).getD 0

/-- A tracker created or reset: IDLE, or a silent PASSING with the full limit where its sensor is active (R42, R46). -/
def freshTracker (e : Env) (z : ZoneId) : Tracker :=
  if e.active (.entry z) then .passing true (limitOf e z) none else .idle

/-- A tracker takes a change of its entry sensor (R42, R43, R45). -/
def entryChange (e : Env) (z : ZoneId) (active : Bool) (w : Work) : Work :=
  match w.trackers[z] with
  | none => w
  | some .idle =>
    if active then headEvent e z (w.setTracker z (.passing false (limitOf e z) none)) else w
  | some (.passing s l _) => w.setTracker z (.passing s l (if active then none else some (gapOf e z)))
  | some (.stuck _) => w.setTracker z (.stuck (if active then none else some (gapOf e z)))

/-- The gap of a tracker ends: the passage ends, with a tail event unless it was silent (R43); a STUCK tracker returns to
IDLE (R45). -/
def gapEnds (e : Env) (z : ZoneId) (w : Work) : Work :=
  match w.trackers[z] with
  | some (.passing s _ (some _)) => if s then w.setTracker z .idle else tailEvent e z (w.setTracker z .idle)
  | some (.stuck (some _)) => w.setTracker z .idle
  | some (.passing _ _ none) => w
  | some (.stuck none) => w
  | some .idle => w
  | none => w

/-- The limit of a passage ends: the tracker is STUCK, keeping a gap in progress, and SENSOR_STUCK is raised (R44). -/
def limitEnds (e : Env) (z : ZoneId) (w : Work) : Work :=
  match w.trackers[z] with
  | some (.passing _ _ g) =>
    closeEvent e (raiseAtZone e .sensorStuck .sensorStuck z 0xFF (w.setTracker z (.stuck g)))
  | some .idle => w
  | some (.stuck _) => w
  | none => w

end Sys2Proof.Machine
end

