-- ==== Sys2Proof/Machine/Switches.lean ====
section
/-! DEFINITION. Track switches outside the arbiter: loss of position, the end of an attempt, and records created or
re-read (R126, R130, R131, R136). -/

namespace Sys2Proof.Machine

/-- The ports that hear of a lost switch: the supervisor, and the port of the section it has joined (R131). -/
def lostPorts (w : Track) (n : SwitchId) : List PortId := supervisorAnd ((w.switches[n]).bind (·.sectionPort))

/-- A settled switch has lost its position (R131): UNKNOWN, in which no drive is on (R125), the release rule applied
afresh, and SWITCH_LOST, with a ride halt where the switch is locked. The second detail is 1 for locked and 0 for not locked
(log 12). -/
def losePosition (e : Env) (n : SwitchId) (w : Work) : Work :=
  let locked := isLocked e w.toTrack n
  let w1 := applyRelease e
    (w.modifySwitch n fun s => { s with state := .unknown, attempts := 0, driveStraight := false, driveDiverge := false })
  let w2 := w1.post (lostPorts w.toTrack n) .switchLost (.switch n) (readingCode (e.positionRead n)) (if locked then 1 else 0)
  if locked then respondHalt e .switchLost w2 else w2

/-- A change of a switch's position inputs (R129, R131): the arrival of a move, or the loss of a settled position. -/
def positionChange (e : Env) (n : SwitchId) (w : Work) : Work :=
  match w.switchState n with
  | some (.settled q) => if e.positionRead n = some q then w else closeEvent e (losePosition e n w)
  | some (.moving q _ _) => if e.positionRead n = some q then closeEvent e (arrive n w) else w
  | some .unknown => w
  | some .failed => w
  | none => w

/-- The third attempt has run out: FAILED, the claim served returns to WAITING, SWITCH_FAILED is reported (R102, R130). -/
def failMove (n : SwitchId) (q : Position) (served : Served) (w : Work) : Work :=
  let w1 := w.modifySwitch n fun s =>
    { s with state := .failed, attempts := 3, driveStraight := false, driveDiverge := false }
  let w2 := match servedClaim w.toTrack n served with
    | some c => returnToWaiting c w1
    | none => w1
  w2.post (servedPorts served) .switchFailed (.switch n) (positionCode q)

/-- The next attempt begins: the drive on again, the limit afresh, SWITCH_RETRY (R130). -/
def retryMove (e : Env) (n : SwitchId) (q : Position) (served : Served) (attempts : Nat) (w : Work) : Work :=
  (w.modifySwitch n fun s =>
      { s with
        state := .moving q (((e.layout.switches[n]).map (·.moveLimit)).getD 0 * 100) served
        attempts := attempts, driveStraight := decide (q = .straight), driveDiverge := decide (q = .diverge) }).post
    (servedPorts served) .switchRetry (.switch n) (byteOf (attempts + 1))

/-- An attempt of a move ends (R130). -/
def attemptEnds (e : Env) (n : SwitchId) (w : Work) : Work :=
  match w.switches[n] with
  | none => w
  | some s =>
    match s.state with
    | .moving q _ served =>
      if s.attempts + 1 < 3 then retryMove e n q served (s.attempts + 1) w
      else closeEvent e (failMove n q served w)
    | .settled _ => w
    | .unknown => w
    | .failed => w

/-- A switch record created, or re-read at a warm start: from its inputs, with no section port (R13, R126, R136). -/
def freshSwitch (e : Env) (n : SwitchId) : Switch :=
  { state := match e.positionRead n with
      | some q => .settled q
      | none => .unknown
    attempts := 0, sectionPort := none, driveStraight := false, driveDiverge := false }

end Sys2Proof.Machine
end

