-- ==== Sys2Proof/Machine/Layouts.lean ====
section
/-! DEFINITION. The layout commands: LOAD_ZONE, LOAD_SWITCH, LOAD_PORT, LOAD_GLOBALS, COMMIT with its seven checks and the
leg set, UNCOMMIT (R2, R5, R7 to R15). -/

namespace Sys2Proof.Machine

/-! ### Loading (R2, R5, R7, R8) -/

/-- The examination every load command begins with: ROLE, then LOCKED (R2, R5, R7, R8). -/
def loadRefusal (p : PortId) (s : State) : Option Reason :=
  if p ≠ 0 then some .role else if s.layout.committed then some .locked else none

/-- A load command past ROLE and LOCKED: ARGUMENT, or the layout it stores (R2, R5, R7, R8). -/
def loadLayout (p : PortId) (l : Option Layout) (s : State) : Answer :=
  match loadRefusal p s with
  | some r => refuse r s
  | none =>
    match l with
    | none => refuse .argument s
    | some l' => doneWith { s with layout := l' }

/-- The READY index of a record: required for a STATION zone, refused for any other (R2). -/
def readyField (f : ZoneFields) : Option (Option ReadyId) :=
  match f.kind, f.ready with
  | .station, some n => (readyArg n).map some
  | .station, none => none
  | _, some _ => none
  | _, none => some none

/-- The owner port of a record: CP1 to CP3 or none, and none for a RUN zone (R2). -/
def ownerField (f : ZoneFields) : Option (Option PortId) :=
  match f.kind, f.owner with
  | .run, some _ => none
  | _, some n => (masterPortArg n).map some
  | _, none => some none

/-- The numbers of a record that apply to its kind lie in their ranges (R2, Table 1-1). -/
def zoneNumbersOk (f : ZoneFields) : Bool :=
  inRange 0 15 f.settle && inRange 1 63 f.gap && inRange 1 255 f.limit && inRange 0 255 f.travel &&
  (!stoppable f.kind || inRange 1 255 f.window) && (!decide (f.kind = .station) || inRange 0 255 f.wait)

/-- The record LOAD_ZONE stores, without the fields that do not apply to its kind; none where a field is refused (R2). -/
def zoneLayoutOf (f : ZoneFields) : Option ZoneLayout :=
  match readyField f, ownerField f with
  | some r, some o =>
    if zoneNumbersOk f then
      some { kind := f.kind, exit := f.exit, entryHigh := f.entryHigh
             stopHigh := if stoppable f.kind then some f.stopHigh else none
             settle := f.settle, gap := f.gap, limit := f.limit, travel := f.travel
             window := if stoppable f.kind then some f.window else none
             ready := r, owner := o, wait := if f.kind = .station then some f.wait else none }
    else none
  | _, _ => none

/-- The layout after LOAD_ZONE; the kind NONE makes the slot undefined (R2). -/
def withZone (l : Layout) (n : Nat) (f : Option ZoneFields) : Option Layout :=
  match zoneArg n, f with
  | some z, none => some { l with zones := l.zones.set z none }
  | some z, some x => (zoneLayoutOf x).map fun r => { l with zones := l.zones.set z (some r) }
  | none, _ => none

/-- LOAD_ZONE (R2). -/
def performLoadZone (p : PortId) (n : Nat) (f : Option ZoneFields) (s : State) : Answer :=
  loadLayout p (withZone s.layout n f) s

/-- The record LOAD_SWITCH stores (R5, Table 1-2). -/
def switchLayoutOf (f : SwitchFields) : Option SwitchLayout :=
  match zoneArg f.root, zoneArg f.straight, zoneArg f.diverge with
  | some r, some a, some b =>
    if inRange 1 255 f.moveLimit then
      some { kind := f.kind, root := r, straight := a, diverge := b, moveLimit := f.moveLimit }
    else none
  | _, _, _ => none

/-- The layout after LOAD_SWITCH (R5). -/
def withSwitch (l : Layout) (n : Nat) (f : Option SwitchFields) : Option Layout :=
  match switchArg n, f with
  | some k, none => some { l with switches := l.switches.set k none }
  | some k, some x => (switchLayoutOf x).map fun r => { l with switches := l.switches.set k (some r) }
  | none, _ => none

/-- LOAD_SWITCH (R5). -/
def performLoadSwitch (p : PortId) (n : Nat) (f : Option SwitchFields) (s : State) : Answer :=
  loadLayout p (withSwitch s.layout n f) s

/-- The layout after LOAD_PORT (R7). -/
def withRole (l : Layout) (n r : Nat) : Option Layout :=
  match masterPortArg n, roleArg r with
  | some q, some x => some { l with roles := l.roles.set q x }
  | _, _ => none

/-- LOAD_PORT (R7). -/
def performLoadPort (p : PortId) (n r : Nat) (s : State) : Answer := loadLayout p (withRole s.layout n r) s

/-- The layout after LOAD_GLOBALS (R8, Table 1-3). -/
def withGlobals (l : Layout) (bypass confirm lookBack : Nat) : Option Layout :=
  if inRange 0 7 bypass && inRange 1 15 confirm && inRange 0 7 lookBack then
    some { l with bypassLimit := bypass, holdConfirm := confirm, lookBack := lookBack }
  else none

/-- LOAD_GLOBALS (R8). -/
def performLoadGlobals (p : PortId) (bypass confirm lookBack : Nat) (s : State) : Answer :=
  loadLayout p (withGlobals s.layout bypass confirm lookBack) s

/-! ### The track graph (R3) -/

/-- The zone is defined. -/
def Layout.defines (l : Layout) (z : ZoneId) : Bool := (l.zones[z]).isSome

/-- The zone is defined and RUN. -/
def Layout.isRun (l : Layout) (z : ZoneId) : Bool := decide ((l.zones[z]).map (·.kind) = some .run)

/-- The zone is defined and stoppable. -/
def Layout.isStop (l : Layout) (z : ZoneId) : Bool := ((l.zones[z]).map fun r => stoppable r.kind).getD false

/-- The exit of a defined zone. -/
def Layout.exitOf (l : Layout) (z : ZoneId) : Option Exit := (l.zones[z]).map (·.exit)

/-- The exit of a zone is this one. -/
def Layout.exits (l : Layout) (z : ZoneId) (x : Exit) : Bool := decide (l.exitOf z = some x)

/-- Where a train leaving a zone through a switch goes, with the position it needs; the STRAIGHT leaf first (R3, R6). -/
def switchHops (n : SwitchId) (w : SwitchLayout) (z : ZoneId) : List (ZoneId × List Requirement) :=
  match w.kind with
  | .diverge =>
    [(w.straight, [{ switch := n, position := .straight }]), (w.diverge, [{ switch := n, position := .diverge }])]
  | .merge => [(w.root, [{ switch := n, position := if z = w.straight then .straight else .diverge }])]

/-- Where a train leaving a zone goes, with the switch position it needs (R3, R6). -/
def hops (l : Layout) (z : ZoneId) : List (ZoneId × List Requirement) :=
  match l.exitOf z with
  | none => []
  | some (.zone y) => [(y, [])]
  | some (.switch n) =>
    match l.switches[n] with
    | none => []
    | some w => switchHops n w z

/-! ### The checks of COMMIT (R10 to R12) -/

/-- The defined zones, in ascending number. -/
def definedZones (l : Layout) : List ZoneId := zoneIds.filter l.defines

/-- The defined switches, in ascending number. -/
def definedSwitches (l : Layout) : List SwitchId := switchIds.filter fun n => (l.switches[n]).isSome

/-- The successor of a zone is undefined, or the zone itself (R11, check 1). -/
def badSuccessor (l : Layout) (z : ZoneId) : Bool :=
  match l.exitOf z with
  | some (.zone y) => !l.defines y || decide (y = z)
  | some (.switch _) => false
  | none => false

/-- Check 1: zones and successors defined (R11). -/
def check1 (l : Layout) : Option CheckSubject :=
  if (definedZones l).length < 2 then some .none else ((definedZones l).find? (badSuccessor l)).map .zone

/-- A fault found in a switch record (R11, check 2). -/
def badSwitch (l : Layout) (n : SwitchId) : Bool :=
  match l.switches[n] with
  | none => false
  | some w =>
    !(l.defines w.root && l.defines w.straight && l.defines w.diverge) ||
    decide (w.root = w.straight) || decide (w.root = w.diverge) || decide (w.straight = w.diverge) ||
    match w.kind with
    | .diverge => !l.exits w.root (.switch n)
    | .merge => !l.exits w.straight (.switch n) || !l.exits w.diverge (.switch n)

/-- A zone whose exit names a switch that does not take it (R11, check 2). -/
def badExit (l : Layout) (z : ZoneId) : Bool :=
  match l.exitOf z with
  | some (.switch n) =>
    match l.switches[n] with
    | none => true
    | some w =>
      match w.kind with
      | .diverge => !decide (w.root = z)
      | .merge => !decide (w.straight = z) && !decide (w.diverge = z)
  | some (.zone _) => false
  | none => false

/-- A switch is an entrance of the zone (R11, check 2). -/
def switchEnters (w : SwitchLayout) (z : ZoneId) : Bool :=
  match w.kind with
  | .diverge => decide (w.straight = z) || decide (w.diverge = z)
  | .merge => decide (w.root = z)

/-- The number of entrances of a zone (R11, check 2). -/
def entrances (l : Layout) (z : ZoneId) : Nat :=
  ((definedZones l).filter fun y => decide (y ≠ z) && l.exits y (.zone z)).length +
  ((definedSwitches l).filter fun n => ((l.switches[n]).map fun w => switchEnters w z).getD false).length

/-- Check 2: switches agree with exits (R11). -/
def check2 (l : Layout) : Option CheckSubject :=
  match (definedSwitches l).find? (badSwitch l) with
  | some n => some (.switch n)
  | none => ((definedZones l).find? fun z => badExit l z || decide (1 < entrances l z)).map .zone

/-- RUN zones a path may not count (R11, check 3). -/
def runBound : Nat := 5

/-- Some path that has passed these RUN zones, the last of them `z`, counts five before it ends (R11, check 3). -/
def overLong (l : Layout) : Nat → ZoneId → List ZoneId → Bool
  | 0, _, passed => decide (runBound ≤ passed.length)
  | fuel + 1, z, passed =>
    decide (runBound ≤ passed.length) ||
    (hops l z).any fun h => l.isRun h.1 && !decide (h.1 ∈ passed) && overLong l fuel h.1 (passed ++ [h.1])

/-- Check 3: RUN chains bounded (R11). -/
def check3 (l : Layout) : Option CheckSubject :=
  ((definedZones l).find? fun z => l.isRun z && overLong l runBound z [z]).map .zone

/-- Some path from `z` over RUN zones comes back to `z0`. After check 3 a cycle has at most four zones. -/
def returnsTo (l : Layout) (z0 : ZoneId) : Nat → ZoneId → Bool
  | 0, _ => false
  | fuel + 1, z => (hops l z).any fun h => decide (h.1 = z0) || (l.isRun h.1 && returnsTo l z0 fuel h.1)

/-- Check 4: no RUN-only cycle. The first zone that lies on one is the lowest-numbered of its cycle (R11, log 29). -/
def check4 (l : Layout) : Option CheckSubject :=
  ((definedZones l).find? fun z => l.isRun z && returnsTo l z runBound z).map .zone

/-- The READY index of a STATION zone. -/
def stationReady (l : Layout) (z : ZoneId) : Option ReadyId :=
  match l.zones[z] with
  | some r => if r.kind = .station then r.ready else none
  | none => none

/-- Check 5: READY inputs distinct (R12). -/
def check5 (l : Layout) : Option CheckSubject :=
  (zoneIds.find? fun z =>
    (stationReady l z).isSome && zoneIds.any fun y => decide (y < z) && decide (stationReady l y = stationReady l z)).map .zone

/-- The role a zone needs of its owner (R12, check 6). -/
def ownerRole (k : ZoneKind) : Role :=
  match k with
  | .station => .station
  | .brake | .lift | .launch | .storage | .run => .transfer

/-- A zone's owner has not the role the zone needs (R12, check 6). -/
def badOwner (l : Layout) (z : ZoneId) : Bool :=
  match l.zones[z] with
  | none => false
  | some r =>
    match r.owner with
    | none => false
    | some p => !decide (l.roles[p] = ownerRole r.kind)

/-- Check 6: owners have matching roles (R12). -/
def check6 (l : Layout) : Option CheckSubject := (zoneIds.find? (badOwner l)).map .zone

/-- A port owns some zone, a STATION zone where that is asked (R12, check 7). -/
def ownsZone (l : Layout) (p : PortId) (station : Bool) : Bool :=
  zoneIds.any fun z =>
    match l.zones[z] with
    | none => false
    | some r => decide (r.owner = some p) && (!station || decide (r.kind = .station))

/-- A port's stored role is not borne out by the zones it owns (R12, check 7). -/
def badRole (l : Layout) (p : PortId) : Bool :=
  match l.roles[p] with
  | .station => !ownsZone l p true
  | .transfer => !ownsZone l p false
  | .observer => false
  | .supervisor => false

/-- Check 7: port roles agree with ownership (R12). -/
def check7 (l : Layout) : Option CheckSubject := ([1, 2, 3].find? (badRole l)).map .port

/-- A check with its number, where it fails. -/
def failed (n : Nat) (c : Option CheckSubject) : Option (Nat × CheckSubject) := c.map fun x => (n, x)

/-- The first check that fails, in the order of Table 1-4 (R10). -/
def commitChecks (l : Layout) : Option (Nat × CheckSubject) :=
  failed 1 (check1 l) <|> failed 2 (check2 l) <|> failed 3 (check3 l) <|> failed 4 (check4 l) <|>
  failed 5 (check5 l) <|> failed 6 (check6 l) <|> failed 7 (check7 l)

/-! ### The leg set (R14) -/

/-- The legs that go on from `z`, having passed these zones and needing these positions (R14). -/
def legsOn (l : Layout) (start : ZoneId) : Nat → ZoneId → List ZoneId → List Requirement → List Leg
  | 0, _, _, _ => []
  | fuel + 1, z, zones, reqs =>
    (hops l z).flatMap fun h =>
      if l.isStop h.1 then [{ start := start, zones := zones ++ [h.1], reqs := reqs ++ h.2 }]
      else legsOn l start fuel h.1 (zones ++ [h.1]) (reqs ++ h.2)

/-- The legs of the layout: from each stoppable zone, in the order of R14. A leg has at most five zones. -/
def legSet (l : Layout) : List Leg := (zoneIds.filter l.isStop).flatMap fun z => legsOn l z runBound z [] []

/-! ### COMMIT and UNCOMMIT (R9, R13, R15) -/

/-- The zone record of a newly committed zone (R35). -/
def freshZone (l : Layout) (r : ZoneLayout) : Zone :=
  { state := .unknown
    brake := if stoppable r.kind then some { hold := .held, supervision := .awaiting (confirmMs l) } else none
    history := [] }

/-- The zone records, trackers and switch records a commit creates, and its mode (R13, steps 2 to 5). -/
def commitTrack (e : Env) (w : Work) : Work :=
  postMode w.mode .commit
    { w with
      mode := .standby
      zones := e.layout.zones.map (·.map (freshZone e.layout))
      trackers := Vector.ofFn fun z => (e.layout.zones[z]).map fun _ => freshTracker e z
      switches := Vector.ofFn fun n => (e.layout.switches[n]).map fun _ => freshSwitch e n }

/-- The ports act in these roles. -/
def State.takeRoles (s : State) (roles : Vector Role 4) : State :=
  { s with ports := Vector.ofFn fun p => { s.ports[p] with role := roles[p] } }

/-- The layout put into service (R13, step 1). -/
def committedLayout (l : Layout) : Layout := { l with committed := true, legs := legSet l }

/-- A successful COMMIT (R13). -/
def commitState (s : State) : State :=
  (({ s with layout := committedLayout s.layout }).run commitTrack).takeRoles s.layout.roles

/-- COMMIT (R9). -/
def performCommit (p : PortId) (s : State) : Answer :=
  match loadRefusal p s with
  | some r => refuse r s
  | none =>
    if s.track.mode = .estopped then refuse .mode s
    else
      match commitChecks s.layout with
      | some (n, x) => (s, .invalid n x)
      | none => doneWith (commitState s)

/-- The records an UNCOMMIT discards, and its mode (R15). -/
def uncommitTrack (w : Work) : Work :=
  postMode w.mode .uncommit
    { w with mode := .unconfigured, zones := Vector.replicate 32 none, trackers := Vector.replicate 32 none
             switches := Vector.replicate 4 none }

/-- The layout taken out of service, its records kept (R15). -/
def uncommittedLayout (l : Layout) : Layout := { l with committed := false, legs := [] }

/-- UNCOMMIT takes effect (R15). -/
def uncommitState (s : State) : State :=
  (({ s with layout := uncommittedLayout s.layout, routes := Vector.replicate 8 Route.cleared }).takeRoles
    Role.initial).run fun _ w => uncommitTrack w

/-- Some train is not ABSENT. -/
def anyTrain (w : Track) : Bool := trainIds.any fun t => !decide ((w.trains[t]).state = .absent)

/-- Some port holds or claims a section. -/
def anySection (w : Track) : Bool := portIds.any fun p => !decide (w.sections[p] = .none)

/-- Why UNCOMMIT is refused (R15). -/
def uncommitRefusal (p : PortId) (s : State) : Option Reason :=
  if p ≠ 0 then some .role
  else if s.layout.committed = false then some .mode
  else if s.track.mode ≠ .standby then some .mode
  else if anyTrain s.track || anySection s.track then some .state
  else if switchIds.any (switchMoving s.track) then some .busy
  else none

/-- UNCOMMIT (R15). -/
def performUncommit (p : PortId) (s : State) : Answer :=
  match uncommitRefusal p s with
  | some r => refuse r s
  | none => doneWith (uncommitState s)

end Sys2Proof.Machine
end

