-- ==== Sys2Proof/Machine/Stops.lean ====
section
/-! DEFINITION. What a train table and a zone table do at the stop sensor, the hold feedback, READY, and the timers of
trains and zones (R21, R30 to R32, R66 to R68, R108, R114, R118, R119). -/

namespace Sys2Proof.Machine

/-! ### Stop sensor (R63, R66) -/

/-- The train at rest CLEARED in the zone. -/
def clearedAt (w : Track) (z : ZoneId) : Option TrainId :=
  trainIds.find? fun t => decide ((w.trains[t]).state = .cleared) && decide ((w.trains[t]).rest = some z)

/-- The RUNNING or HALTED train whose footprint is the one zone. -/
def movingAt (w : Track) (z : ZoneId) : Option TrainId :=
  trainIds.find? fun t =>
    (decide ((w.trains[t]).state = .running) || decide ((w.trains[t]).state = .halted)) &&
    decide ((w.trains[t]).rest = some z)

/-- A change of a stop sensor: a CLEARED train departs when it becomes inactive (R66), and at-rest detection judges a
moving train when it becomes active (R62 to R64). It changes nothing for a train at rest otherwise (R63). -/
def stopChange (e : Env) (z : ZoneId) (active : Bool) (w : Work) : Work :=
  match w.hold z with
  | none => w
  | some _ =>
    if active then
      match movingAt w.toTrack z with
      | some _ => closeEvent e w
      | none => w
    else
      match clearedAt w.toTrack z with
      | some t => depart e t z w
      | none => w

/-! ### Hold feedback (R30 to R32) -/

/-- The feedback agrees with the hold: closed with HELD, open with RELEASED (R30). -/
def agrees (h : Hold) (closed : Bool) : Bool :=
  match h with
  | .held => closed
  | .released => !closed

/-- The feedback does not agree with the hold when judged: DISAGREE, with HOLD_FAILED for a HELD brake that shows open
and HOLD_STUCK for a RELEASED brake that shows closed (R31, R32). -/
def judgeDisagree (e : Env) (z : ZoneId) (h : Hold) (w : Work) : Work :=
  match h with
  | .held => closeEvent e (raiseAtZone e .holdFailed .holdFailed z 0xFF (w.setSupervision z .disagree))
  | .released => (w.setSupervision z .disagree).post [0] .holdStuck (.zone z)

/-- A zone's brake, of stoppable zones. -/
def Track.brake (w : Track) (z : ZoneId) : Option Brake := (w.zones[z]).bind (·.brake)

/-- A change of the hold feedback (R30, R32). -/
def feedbackChange (e : Env) (z : ZoneId) (w : Work) : Work :=
  match w.brake z with
  | none => w
  | some b =>
    match b.supervision with
    | .awaiting _ => w
    | .confirmed => if agrees b.hold (e.active (.feedback z)) then w else judgeDisagree e z b.hold w
    | .disagree => if agrees b.hold (e.active (.feedback z)) then w.setSupervision z .confirmed else w

/-- The confirm time ends (R31). -/
def confirmEnds (e : Env) (z : ZoneId) (w : Work) : Work :=
  match w.brake z with
  | none => w
  | some b =>
    match b.supervision with
    | .awaiting _ =>
      if agrees b.hold (e.active (.feedback z)) then w.setSupervision z .confirmed else judgeDisagree e z b.hold w
    | .confirmed => w
    | .disagree => w

/-! ### READY (R117 to R119) -/

/-- The phases of a dispatch at a STATION zone (Table 7-2). -/
inductive Phase
  | waiting | setting | cleared
deriving DecidableEq, Repr

/-- The train that occupies a zone, by its train field. -/
def occupant (w : Track) (z : ZoneId) : Option TrainId :=
  match w.zoneState z with
  | some (.occupied t) => some t
  | _ => none

/-- A claim of origin DISPATCH of the train for the leg from `z`. -/
def Claim.isDispatchFrom (c : Claim) (t : TrainId) (z : ZoneId) : Bool :=
  match c.legOf t with
  | some g =>
    match g.origin with
    | .dispatch _ => decide (g.start = z)
    | .move _ => false
    | .auto => false
  | none => false

/-- The DISPATCH claim of the train for the leg from `z`, in the list or the line. -/
def dispatchClaim (w : Track) (t : TrainId) (z : ZoneId) : Option Claim := w.allClaims.find? fun c => c.isDispatchFrom t z

/-- The dispatch phase of a zone, with its train (R117). -/
def dispatchPhase (w : Track) (z : ZoneId) : Option (Phase × TrainId) :=
  match occupant w z with
  | none => none
  | some t =>
    match (w.trains[t]).state with
    | .claiming =>
      match dispatchClaim w t z with
      | some c => some (if c.isWaiting then .waiting else .setting, t)
      | none => none
    | .cleared =>
      match (w.trains[t]).authority with
      | g :: _ =>
        match g.origin with
        | .dispatch _ => some (.cleared, t)
        | .move _ => none
        | .auto => none
      | [] => none
    | _ => none

/-- A dispatch whose claim is in the list or the line is withdrawn, and aborted with the cause (R118, R120, R124). -/
def abortClaimed (t : TrainId) (z : ZoneId) (cause : AbortCause) (w : Work) : Work :=
  match dispatchClaim w.toTrack t z with
  | some c => postAbort t (progressOrigin w.toTrack t) cause (withdrawClaim c w)
  | none => w

/-- A dispatch in the phase CLEARED is taken back (R119). -/
def takeBackCleared (t : TrainId) (w : Work) : Work :=
  postAbort t (progressOrigin w.toTrack t) .ready
    ((removeEntries t 0 w).modifyTrain t fun r =>
      { (r.mapRide fun d => { d with stalled := false }) with state := .standing, departure := none })

/-- The STATION zone that names a READY input; at most one (R12, check 5). -/
def readyZone (l : Layout) (i : ReadyId) : Option ZoneId :=
  zoneIds.find? fun z =>
    match l.zones[z] with
    | some r => decide (r.kind = .station) && decide (r.ready = some i)
    | none => false

/-- A READY input of a committed STATION zone becomes inactive (R118, R119). -/
def readyDrops (e : Env) (i : ReadyId) (w : Work) : Work :=
  match readyZone e.layout i with
  | none => w
  | some z =>
    match dispatchPhase w.toTrack z with
    | none => w
    | some (.waiting, t) => closeEvent e (abortClaimed t z .ready w)
    | some (.setting, t) => closeEvent e (abortClaimed t z .ready w)
    | some (.cleared, t) => closeEvent e (takeBackCleared t w)

/-- A change of a READY input; a change to active is not acted on (R118). -/
def readyChange (e : Env) (i : ReadyId) (active : Bool) (w : Work) : Work :=
  if active then w else if e.layout.committed then readyDrops e i w else w

/-! ### Timers of zones, trains and claims -/

/-- A CLEARING zone's settle time ends (R21). -/
def settleEnds (e : Env) (z : ZoneId) (w : Work) : Work :=
  match w.zoneState z with
  | some (.clearing _ _) => closeEval e (w.setZone z .clear)
  | _ => w

/-- The dwell of a STANDING train ends (R114); a dwell runs in STANDING alone (Table 4-1). -/
def dwellEnds (e : Env) (t : TrainId) (w : Work) : Work :=
  match (w.trains[t]).state, (w.trains[t]).dwell with
  | .standing, some _ => closeEval e (endDwell e t w)
  | _, _ => w

/-- DEPARTURE_STALLED: the train halt (R67). -/
def stall (e : Env) (t : TrainId) (z : ZoneId) (w : Work) : Work :=
  let w1 := (removeEntries t 0 w).modifyTrain t fun r =>
    { (r.mapRide fun d => { d with stalled := true }) with state := .standing, departure := none }
  let w2 := w1.post [0] .departureStalled (.train t) (byteOf z.val)
  match e.owner z with
  | some p => w2.post [p] .stalled (.train t)
  | none => w2

/-- A CLEARED train's departure window ends (R67). -/
def windowEnds (e : Env) (t : TrainId) (w : Work) : Work :=
  match (w.trains[t]).departure, (w.trains[t]).rest with
  | some _, some z => closeEvent e (stall e t z w)
  | _, _ => w

/-- A train's travel timer ends: OVERDUE at its head zone (R68). -/
def travelEnds (e : Env) (t : TrainId) (w : Work) : Work :=
  match (w.trains[t]).travel, (w.trains[t]).head with
  | some _, some z => closeEvent e (raiseAtZone e .overdue .overdue z (byteOf t.val) w)
  | _, _ => w

/-- A claimant's WAITING claim with a wait remaining. -/
def waitingClaim (w : Track) (k : Claimant) : Option Claim :=
  w.allClaims.find? fun c => decide (c.claimant = k) && c.isWaiting && c.wait.isSome

/-- DISPATCH_EXPIRED, with the STATION zone as detail (R108, R121). -/
def postExpired (g : LegClaim) (w : Work) : Work :=
  match g.origin with
  | .dispatch p => w.post [0, p] .dispatchExpired (.train g.train) (byteOf g.start.val)
  | .move _ => w
  | .auto => w

/-- A claim's wait ends: it leaves the list or the line (R108, R139). -/
def waitEnds (e : Env) (k : Claimant) (w : Work) : Work :=
  match waitingClaim w.toTrack k with
  | none => w
  | some c =>
    match c.body with
    | .leg g => closeEval e (postExpired g (withdrawClaim c w))
    | .sectionOf g =>
      closeEvent e (((withdrawClaim c w).setSection g.port .none).post [0, g.port] .sectionExpired (.port g.port))

end Sys2Proof.Machine
end

