-- ==== Sys2Proof/Machine/Sections.lean ====
section
/-! DEFINITION. Manual sections: the judging of declarations, the return, and the revocation (R143 to R147), and what a
lapse takes back (R124). -/

namespace Sys2Proof.Machine

/-! ### The return (R144 to R146) -/

/-- Why a returned zone becomes UNKNOWN (R144), in the order of its table. -/
inductive MismatchReason
  | stopSensor | passage | runZone | trainState | duplicate | undeclared
deriving DecidableEq, Repr

/-- The code of a reason: its place in R144's table (R179). -/
def mismatchCode : MismatchReason → Byte
  | .stopSensor => 1
  | .passage => 2
  | .runZone => 3
  | .trainState => 4
  | .duplicate => 5
  | .undeclared => 6

/-- What a declaration of a zone makes of it (R144). -/
inductive Judged
  | clear
  | occupied (t : TrainId)
  | unknown (r : MismatchReason)
deriving DecidableEq, Repr

/-- A declaration whose numbers have been checked: a zone, and EMPTY or a train. -/
abbrev Declaration := ZoneId × Option TrainId

/-- A tracker is PASSING or STUCK. -/
def trackerBusy (w : Track) (z : ZoneId) : Bool :=
  match w.trackers[z] with
  | some (.passing _ _ _) => true
  | some (.stuck _) => true
  | some .idle => false
  | none => false

/-- A zone of the layout is stoppable. -/
def isStoppable (e : Env) (z : ZoneId) : Bool := ((e.zone z).map fun r => stoppable r.kind).getD false

/-- A zone's stop sensor is active, of a stoppable zone. -/
def stopActive (e : Env) (z : ZoneId) : Bool := isStoppable e z && e.active (.stop z)

/-- The train is declared in more than one zone of the return (R144). -/
def declaredTwice (ds : List Declaration) (t : TrainId) : Bool :=
  decide (1 < (ds.filter fun d => decide (d.2 = some t)).length)

/-- The train is MANUAL in the port's section, or ABSENT (R144). -/
def declarable (w : Track) (p : PortId) (t : TrainId) : Bool :=
  match (w.trains[t]).state with
  | .manual => decide ((w.trains[t]).sectionPort = some p)
  | .absent => true
  | _ => false

/-- A zone of the section judged against its declaration (R144): the reason is the first of the table. -/
def judgeZone (e : Env) (w : Track) (p : PortId) (ds : List Declaration) (z : ZoneId) : Judged :=
  match (ds.find? fun d => decide (d.1 = z)).map (·.2) with
  | none => .unknown .undeclared
  | some none =>
    if stopActive e z then .unknown .stopSensor
    else if trackerBusy w z then .unknown .passage
    else .clear
  | some (some t) =>
    if isStoppable e z = false then .unknown .runZone
    else if declarable w p t = false then .unknown .trainState
    else if declaredTwice ds t then .unknown .duplicate
    else .occupied t

/-- The outcomes of a section's zones, in its order. -/
def judgeAll (e : Env) (w : Track) (p : PortId) (ds : List Declaration) (zs : List ZoneId) : List (ZoneId × Judged) :=
  zs.map fun z => (z, judgeZone e w p ds z)

/-- A zone takes its judged state, with RETURN_MISMATCH where it becomes UNKNOWN (R144). -/
def returnZone (p : PortId) (q : ZoneId × Judged) (w : Work) : Work :=
  match q.2 with
  | .clear => w.setZone q.1 .clear
  | .occupied t => w.setZone q.1 (.occupied t)
  | .unknown r => (w.setZone q.1 .unknown).post [0, p] .returnMismatch (.zone q.1) (mismatchCode r)

/-- The zone a train is validly declared in. -/
def validZone (js : List (ZoneId × Judged)) (t : TrainId) : Option ZoneId :=
  (js.find? fun q => decide (q.2 = .occupied t)).map (·.1)

/-- A train with a valid declaration in `z` (R145): a MANUAL one STANDING at its cursor step, or STORED without its route;
an ABSENT one STORED with the tag 0. -/
def returnedTrain (e : Env) (r : Train) (z : ZoneId) : Train :=
  match r.state with
  | .manual =>
    if ((e.cursorStep r).map (·.zone)) = some z then
      { (r.mapRide fun d => { d with stalled := false }) with state := .standing, footprint := [z], sectionPort := none }
    else { r with state := .stored, footprint := [z], sectionPort := none, ride := none }
  | _ => { Train.gone with state := .stored, footprint := [z] }

/-- What a return makes of one train (R145). -/
def returnTrain (e : Env) (p : PortId) (ds : List Declaration) (js : List (ZoneId × Judged)) (t : TrainId) (w : Work) :
    Work :=
  match validZone js t with
  | some z => w.modifyTrain t fun r => returnedTrain e r z
  | none =>
    if (w.trains[t]).state = .manual ∧ (w.trains[t]).sectionPort = some p then
      if ds.any fun d => decide (d.2 = some t) then w.modifyTrain t Train.toLost
      else (w.setTrain t Train.gone).post [0, p] .trainRemoved (.train t)
    else w

/-- A switch leaves its section, a move in progress going on for no port (R133). -/
def leaveSection (s : Switch) : Switch :=
  match s.state with
  | .moving q l (.port _) => { s with state := .moving q l .none, sectionPort := none }
  | _ => { s with sectionPort := none }

/-- The trains a return has set STANDING, in ascending number (R146, step 5). -/
def returnedStanding (js : List (ZoneId × Judged)) (w : Track) : List TrainId :=
  trainIds.filter fun t => (validZone js t).isSome && decide ((w.trains[t]).state = .standing)

/-- How many zones of a return become UNKNOWN. -/
def unknownCount (js : List (ZoneId × Judged)) : Nat :=
  (js.filter fun q => match q.2 with
    | .unknown _ => true
    | .clear => false
    | .occupied _ => false).length

/-- The return of a held section (R144 to R146), up to the evaluation. The zones are taken in the order in which they were
requested, so several RETURN_MISMATCH notices stand in that order, the TRAIN_REMOVED notices behind them in ascending train
number; R144 and R145 give no order (the model's choice, log 15). -/
def returnSection (e : Env) (p : PortId) (h : HeldSection) (ds : List Declaration) (w : Work) : Work :=
  let js := judgeAll e w.toTrack p ds h.zones
  let w1 := js.foldl (fun w q => returnZone p q w) w
  let w2 := trainIds.foldl (fun w t => returnTrain e p ds js t w) w1
  let w3 := (h.switches.foldl (fun w n => w.modifySwitch n leaveSection) w2).setSection p .none
  let w4 := (applyRelease e w3).post [0] .sectionReturned (.port p) (byteOf (unknownCount js))
  (returnedStanding js w4.toTrack).foldl (fun w t => actOnStep e t w) w4

/-! ### Revocation (R147) -/

/-- A switch of a revoked section: a move in progress is abandoned, and the switch leaves the section (R133, R147). -/
def revokeSwitch (e : Env) (n : SwitchId) (s : Switch) : Switch :=
  if s.isMoving then { s.reread (e.positionRead n) with sectionPort := none } else { s with sectionPort := none }

/-- A held section is revoked (R147). -/
def revokeSection (e : Env) (p : PortId) (h : HeldSection) (w : Work) : Work :=
  let ts := w.manualTrains p
  let w1 := w.setZones h.zones .unknown
  let w2 := ts.foldl (fun w t => w.modifyTrain t Train.toLost) w1
  let w3 := h.switches.foldl (fun w n => w.modifySwitch n (revokeSwitch e n)) w2
  (applyRelease e (w3.setSection p .none)).post [0] .sectionRevoked (.port p) (byteOf ts.length)

/-- What a lapse does with the port's section record (R139, R147). -/
def lapseSection (e : Env) (p : PortId) (w : Work) : Work :=
  match w.sections[p] with
  | .none => w
  | .claimed =>
    ((withdrawAll (fun c => c.isSectionOf p) w).setSection p .none).post [0, p] .sectionWithdrawn (.port p)
      (abortCode .lapse)
  | .held h => revokeSection e p h w

/-! ### Claims of a lapsed port (R124) -/

/-- The origin names the port, by DISPATCH or by MOVE. -/
def Origin.isOf (o : Origin) (p : PortId) : Bool :=
  match o with
  | .dispatch q => decide (q = p)
  | .move q => decide (q = p)
  | .auto => false

/-- A LEG claim of origin DISPATCH or MOVE of the port. -/
def Claim.isOrderOf (c : Claim) (p : PortId) : Bool :=
  match c.body with
  | .leg g => g.origin.isOf p
  | .sectionOf _ => false

/-- A dispatch's claim before a move's: R124 takes the DISPATCH claims first. -/
def Claim.isDispatch (c : Claim) : Bool :=
  match c.body with
  | .leg g =>
    match g.origin with
    | .dispatch _ => true
    | .move _ => false
    | .auto => false
  | .sectionOf _ => false

/-- One DISPATCH or MOVE claim of a lapsed port is withdrawn, and aborted with the cause LAPSE (R124). -/
def lapseClaim (c : Claim) (w : Work) : Work :=
  match c.body with
  | .leg g => postAbort g.train (some g.origin) .lapse (withdrawClaim c w)
  | .sectionOf _ => w

/-- The DISPATCH and then the MOVE claims of a lapsed port are withdrawn (R124, steps 1 and 2). -/
def lapseClaims (p : PortId) (w : Work) : Work :=
  let cs := w.allClaims.filter fun c => c.isOrderOf p
  ((cs.filter fun c => c.isDispatch) ++ cs.filter fun c => !c.isDispatch).foldl (fun w c => lapseClaim c w) w

end Sys2Proof.Machine
end

