-- ==== Sys2Proof/Machine/Starts.lean ====
section
/-! DEFINITION. Occupancy samples, the cold start and the warm start (R16, R26, R36, R46, R74, R112, R136, R148, R164, R165,
R177). -/

namespace Sys2Proof.Machine

/-! ### Occupancy samples (R26) -/

/-- The states a sample records as occupied (R26). -/
def occupiedState : ZoneState → Bool
  | .occupied _ => true
  | .unknown => true
  | .fault _ => true
  | .clearing _ _ => true
  | .clear => false
  | .reserved _ => false
  | .handed _ => false

/-- The sample of a zone at this instant (R26). -/
def sampleOf (e : Env) (z : ZoneId) (r : Zone) : Bool := occupiedState r.state || stopActive e z

/-- A sample enters the history as sample 0 (R26). -/
def Zone.record (b : Bool) (r : Zone) : Zone := { r with history := (b :: r.history).take Config.historySize }

/-- Every defined zone takes a sample (R26). -/
def sampleZones (e : Env) (w : Work) : Work :=
  { w with zones := Vector.ofFn fun z => (w.zones[z]).map fun r => r.record (sampleOf e z r) }

/-! ### Cold start -/

/-- The sampler is cleared; the levels on the wires are not the controller's (R39, log 6). -/
def Line.cleared (x : Line) : Line := { Line.reset with pin := x.pin }

/-- The sampler of every line is cleared (R39). -/
def Inputs.cleared (x : Inputs) : Inputs :=
  { entry := x.entry.map Line.cleared, stop := x.stop.map Line.cleared, feedback := x.feedback.map Line.cleared
    straight := x.straight.map Line.cleared, diverge := x.diverge.map Line.cleared
    ready := x.ready.map Line.cleared, estop := x.estop.map Line.cleared }

/-- A cold start clears all state (R16, R35, R39, R46, R74, R84, R112, R136, R148, R164, R177). The wires, the commands
that wait outside and the model's own counter stay (log 6, log 22). -/
def coldStart (s : State) : State :=
  { State.reset with inputs := s.inputs.cleared, choices := s.choices, pending := s.pending }

/-! ### Warm start -/

/-- Every train that is not ABSENT becomes LOST (R74). -/
def warmTrain (r : Train) : Train := if r.state = .absent then r else r.toLost

/-- A zone comes back CLEAR (R36, step 3): it was neither FAULT nor HANDED, no sample up to the look-back is occupied or
missing, and its stop sensor is not active. -/
def trusted (e : Env) (z : ZoneId) (was : ZoneState) (history : List Bool) : Bool :=
  (match was with
    | .fault _ => false
    | .handed _ => false
    | .clear => true
    | .reserved _ => true
    | .occupied _ => true
    | .clearing _ _ => true
    | .unknown => true) &&
  decide (e.layout.lookBack < history.length) && (history.take (e.layout.lookBack + 1)).all (fun b => !b) &&
  !stopActive e z

/-- A zone record rebuilt (R36, steps 2 to 7). -/
def warmZone (e : Env) (z : ZoneId) (r : Zone) : Zone :=
  let r1 := r.record (sampleOf e z r)
  { r1 with
    state := if trusted e z r.state r1.history then .clear else .unknown
    brake := r1.brake.map fun _ => { hold := .held, supervision := .awaiting (confirmMs e.layout) } }

/-- Either ESTOP line is active at its debounced level, which a warm start reads (R39, R165). -/
def anyEstop (e : Env) : Bool := e.active (.estop 0) || e.active (.estop 1)

/-- The mode after a warm start (R165). -/
def warmMode (e : Env) (m : Mode) : Mode :=
  if anyEstop e || decide (m = .estopped) then .estopped
  else if e.layout.committed then .halted else .unconfigured

/-- The ESTOP clear remaining after a warm start (R165). -/
def warmClear (e : Env) (m : Mode) : Option Nat :=
  if !anyEstop e && decide (m = .estopped) then some Config.estopClearTime else none

/-- The track after a warm start, with the MODE notice (R36, R46, R74, R112, R136, R148, R165). -/
def warmTrack (e : Env) (w : Work) : Work :=
  postMode w.mode .warmStart
    { w with
      mode := warmMode e w.mode
      estopClear := warmClear e w.mode
      zones := Vector.ofFn fun z => (w.zones[z]).map (warmZone e z)
      trackers := Vector.ofFn fun z => (w.trackers[z]).map fun _ => freshTracker e z
      trains := w.trains.map warmTrain
      claims := [], line := [], nextSeq := 0
      switches := Vector.ofFn fun n => (w.switches[n]).map fun _ => freshSwitch e n
      sections := Vector.replicate 4 Section.none }

/-- The blocks that rebuild their state read the debounced levels as they stand: no change is left to deliver (R39, log 5). -/
def Line.told (x : Line) : Line := { x with due := false }

/-- The sampler after a warm start: levels and counts kept (R39). -/
def Inputs.told (x : Inputs) : Inputs :=
  { entry := x.entry.map Line.told, stop := x.stop.map Line.told, feedback := x.feedback.map Line.told
    straight := x.straight.map Line.told, diverge := x.diverge.map Line.told, ready := x.ready.map Line.told
    estop := x.estop.map Line.told }

/-- The full period of a lease setting, in milliseconds; none when it is off (R175). -/
def Port.leaseFull (r : Port) : Option Nat :=
  if r.leaseCount = 0 then none
  else
    match r.leaseUnit with
    | .tenths => some (r.leaseCount * 100)
    | .seconds => some (r.leaseCount * 1000)

/-- A port record after a warm start: role, lease setting and mask kept (R177), and the bytes its last frame returned, which
R168 and R169 give to the frame whose command or reply the start follows (log 17). -/
def Port.warm (r : Port) : Port :=
  { r with
    commands := [], replies := [], notices := [], lastReturned := none, rejected := false, summary := 0
    overflow := false, lapsed := false, lapseSeen := false, leaseRemaining := r.leaseFull }

/-- A warm start (R165): the queues are emptied and the timebase restarts, and then the blocks rebuild their state and the
MODE notice is posted. -/
def warmStart (s : State) : State :=
  ({ s with ports := s.ports.map Port.warm, time := 0, sampleDue := false, inputs := s.inputs.told }).run warmTrack

end Sys2Proof.Machine
end

