-- ==== Sys2Proof/Machine/ModeOrders.lean ====
section
/-! DEFINITION. SET_MODE with resume and the entry into STANDBY, RESTART, and the leases: SET_LEASE, FORCE_LAPSE and the
lapse of a port (R159 to R163, R166, R175, R176). -/

namespace Sys2Proof.Machine

/-! ### Resume (R160) -/

/-- A train admitted to resume: STANDING, no claim of its own, stalled and at-end clear (R160). -/
def admitted (w : Track) (t : TrainId) : Bool :=
  decide ((w.trains[t]).state = .standing) && !(w.allClaims.any fun c => c.isLegOf t) && !(w.trains[t]).stalled &&
  !(w.trains[t]).atEnd

/-- Resume for one train: a claim at a PASS step, the dwell afresh at a HOLD step (R160). -/
def resumeTrain (e : Env) (t : TrainId) (w : Work) : Work :=
  if admitted w.toTrack t then
    match e.cursorAction (w.trains[t]) with
    | some .pass => formAtRest e t .auto none w
    | some (.hold d) => startDwell e t d w
    | some .dispatch => w
    | some .park => w
    | none => w
  else w

/-- Resume, in ascending train number (R160). -/
def resume (e : Env) (w : Work) : Work := trainIds.foldl (fun w t => resumeTrain e t w) w

/-! ### SET_MODE (R159 to R163) -/

/-- A zone is FAULT. -/
def zoneFaulted (w : Track) (z : ZoneId) : Bool :=
  match w.zoneState z with
  | some (.fault _) => true
  | _ => false

/-- Some train is in this state. -/
def anyTrainIn (w : Track) (x : TrainState) : Bool := trainIds.any fun t => decide ((w.trains[t]).state = x)

/-- Why SET_MODE OPERATING is refused (R161). -/
def blocksOperating (w : Track) : Bool := zoneIds.any (zoneFaulted w) || anyTrainIn w .halted

/-- Why SET_MODE STANDBY is refused (R162). -/
def blocksStandby (w : Track) : Bool :=
  decide (w.mode = .operating) &&
  (anyTrainIn w .running || anyTrainIn w .cleared || w.claims.any fun c => !c.isWaiting)

/-- The mode becomes OPERATING (R160, R161). -/
def enterOperating (e : Env) (w : Work) : Work :=
  closeEvent e (resume e (postMode w.mode .setMode { w with mode := .operating }))

/-- One LEG claim is withdrawn on entry into STANDBY, a dispatch or move aborted with the cause STANDBY (R162). -/
def standbyClaim (c : Claim) (w : Work) : Work :=
  match c.body with
  | .leg g => postAbort g.train (some g.origin) .standby (withdrawClaim c w)
  | .sectionOf _ => w

/-- The mode becomes STANDBY (R162). -/
def enterStandby (e : Env) (w : Work) : Work :=
  let w1 := w.allClaims.foldl (fun w c => standbyClaim c w) { w with mode := .standby }
  closeEvent e (postMode w.mode .setMode (applyRelease e w1))

/-- The mode becomes HALTED by order: from OPERATING with the ride halt (R163). -/
def enterHalted (e : Env) (w : Work) : Work :=
  if w.mode = .operating then closeEvent e (postMode w.mode .setMode (rideHalt e .halted w))
  else closeEvent e (postMode w.mode .setMode (applyRelease e { w with mode := .halted }))

/-- SET_MODE past ROLE, ARGUMENT and MODE, to a mode other than the present one (R159, step 5). -/
def tryMode (m : Mode) (s : State) : Answer :=
  match m with
  | .operating => if blocksOperating s.track then refuse .state s else doneWith (s.run enterOperating)
  | .standby => if blocksStandby s.track then refuse .state s else doneWith (s.run enterStandby)
  | .halted => doneWith (s.run enterHalted)
  | .unconfigured => refuse .argument s
  | .estopped => refuse .argument s

/-- SET_MODE (R159). -/
def performSetMode (p : PortId) (n : Nat) (s : State) : Answer :=
  if p ≠ 0 then refuse .role s
  else
    match modeArg n with
    | none => refuse .argument s
    | some m =>
      if s.track.mode = .unconfigured ∨ s.track.mode = .estopped then refuse .mode s
      else if s.track.mode = m then doneWith s
      else tryMode m s

/-! ### RESTART (R166) -/

/-- RESTART (R166). Its reply is queued after the queues have been emptied. -/
def performRestart (p : PortId) (s : State) : Answer :=
  if p ≠ 0 then refuse .role s else doneWith (warmStart s)

/-! ### Leases and lapse (R175, R176) -/

/-- Why a port lapses (R176). -/
inductive LapseCause
  | expiry | forced
deriving DecidableEq, Repr

/-- The code of a cause of lapse: its place in R172's words (log 12). -/
def lapseCauseCode : LapseCause → Byte
  | .expiry => 1
  | .forced => 2

/-- The port's own part of a lapse (R176, steps 1 and 2). -/
def Port.lapse (r : Port) : Port :=
  { r with
    lapsed := true, lapseSeen := true, leaseRemaining := none
    commands := r.commands.map fun c => { c with preLapse := true } }

/-- What a lapse does on the track: the port's claims and section, LEASE_LAPSED, and for CP0 the fault
SUPERVISOR_LAPSED (R124, R147, R155; R176, steps 3 to 5). -/
def lapseTrack (p : PortId) (c : LapseCause) (e : Env) (w : Work) : Work :=
  let w1 := (lapseSection e p (lapseClaims p w)).post [0] .leaseLapsed (.port p) (lapseCauseCode c)
  closeEvent e (if p = 0 then raiseHalt e .supervisorLapsed (.port p) 0xFF 0xFF w1 else w1)

/-- A port lapses; one that is LAPSED already does not lapse again (R176). -/
def lapse (p : PortId) (c : LapseCause) (s : State) : State :=
  if (s.ports[p]).lapsed then s else (s.modifyPort p Port.lapse).run (lapseTrack p c)

/-- A lease setting is stored; an ACTIVE port's lease takes the new period (R175). -/
def Port.setLease (n : Nat) (u : LeaseUnit) (r : Port) : Port :=
  let r1 := { r with leaseCount := n, leaseUnit := u }
  if r.lapsed then r1 else { r1 with leaseRemaining := r1.leaseFull }

/-- SET_LEASE (R175). -/
def performSetLease (p : PortId) (n count unit : Nat) (s : State) : Answer :=
  if p ≠ 0 then refuse .role s
  else
    match portArg n, unitArg unit with
    | some q, some u =>
      if inRange 0 255 count then doneWith (s.modifyPort q (Port.setLease count u)) else refuse .argument s
    | _, _ => refuse .argument s

/-- FORCE_LAPSE (R176). -/
def performForceLapse (p : PortId) (n : Nat) (s : State) : Answer :=
  if p ≠ 0 then refuse .role s
  else
    match masterPortArg n with
    | none => refuse .argument s
    | some q => doneWith (lapse q .forced s)

end Sys2Proof.Machine
end

