-- ==== Sys2Proof/Machine/Records.lean ====
section
/-! DEFINITION. The bytes of frames and records: the CRC-8, numbers most significant byte first, replies, notices, and the
items of a long reply (R168, R169, R172, R178, R179). -/

namespace Sys2Proof.Machine

/-! ### CRC-8 (R168) -/

/-- One bit of the CRC-8: polynomial 0x2F, most significant bit first. -/
def crcBit (c : Byte) : Byte := if c.msb then (c <<< 1) ^^^ 0x2F else c <<< 1

/-- One byte of the CRC-8. -/
def crcByte (c b : Byte) : Byte := crcBit (crcBit (crcBit (crcBit (crcBit (crcBit (crcBit (crcBit (c ^^^ b))))))))

/-- The CRC-8 of some bytes: initial value 0xFF, no final inversion (R168). -/
def crc8 (bs : List Byte) : Byte := bs.foldl crcByte 0xFF

/-! ### Fields (R179) -/

/-- A number in two bytes, most significant first. -/
def bytes2 (n : Nat) : List Byte := [byteOf (n / 256), byteOf n]

/-- A remaining time in milliseconds, in three bytes, most significant first. -/
def bytes3 (n : Nat) : List Byte := [byteOf (n / 65536), byteOf (n / 256), byteOf n]

/-- A timestamp, most significant byte first (Table 13-5). -/
def bytes4 (t : BitVec 32) : List Byte :=
  [byteOf (t.toNat / 16777216), byteOf (t.toNat / 65536), byteOf (t.toNat / 256), byteOf t.toNat]

/-- An optional field: absent, it is the byte 0xFF (R179, log 8). -/
def optField {α : Type} (f : α → List Byte) (x : Option α) : List Byte :=
  match x with
  | some a => f a
  | none => [0xFF]

/-- An optional number of one byte. -/
def optByte (x : Option Nat) : Byte :=
  match x with
  | some n => byteOf n
  | none => 0xFF

/-- A flag: 1 for set, on, yes or active, 0 otherwise (log 8, log 25). -/
def flagByte (b : Bool) : Byte := if b then 1 else 0

/-! ### Records (Tables 13-2, 13-4 and 13-5) -/

/-- The code of a reason (Table 13-4). -/
def reasonCode : Reason → Byte
  | .role => 1
  | .mode => 2
  | .state => 3
  | .argument => 4
  | .locked => 5
  | .busy => 6
  | .notReady => 7

/-- The subject of a failed validation: kind and number (Table 13-4); no subject has the number 0xFF. -/
def checkSubjectBytes : CheckSubject → List Byte
  | .none => [0, 0xFF]
  | .zone z => [1, byteOf z.val]
  | .switch n => [2, byteOf n.val]
  | .port p => [3, byteOf p.val]
  | .step s => [4, byteOf s.val]

/-- The content of a reply record (Table 13-4). -/
def replyBytes (r : Reply) : List Byte :=
  match r.body with
  | .done data => [r.code, 0] ++ data
  | .accepted => [r.code, 1]
  | .refused x => [r.code, 2, reasonCode x]
  | .invalid n x => [r.code, 2, 8, byteOf n] ++ checkSubjectBytes x

/-- The content of a notice record (Table 13-5). -/
def noticeBytes (n : Notice) : List Byte :=
  [noticeCode n.note.name, byteOf (classNumber (noticeClass n.note.name)), byteOf (subjectNumber n.note.subject),
   n.note.detail1, n.note.detail2] ++ bytes4 n.time

/-- The kind of a record (Table 13-2). -/
def recordKind : Record → Byte
  | .empty => 0
  | .reply _ => 1
  | .notice _ => 2

/-- The content of a record (Table 13-2). -/
def recordContent : Record → List Byte
  | .empty => []
  | .reply r => replyBytes r
  | .notice n => noticeBytes n

/-- The kind, length and content of a record: what its CRC-8 covers (R169). -/
def recordBody (r : Record) : List Byte := [recordKind r, byteOf (recordContent r).length] ++ recordContent r

/-- A record as a read frame returns it, with its CRC-8 (R169, Table 13-2). -/
def recordBytes (r : Record) : List Byte := recordBody r ++ [crc8 (recordBody r)]

/-! ### The items of READ_TRAIN and READ_CLAIM (R179, log 23) -/

/-- A part of a long reply: a field, which is one item, or a list field, each entry of which is one item. -/
inductive Part
  | field (bs : List Byte)
  | list (entries : List (List Byte))
deriving DecidableEq, Repr

/-- A long reply while it is put together: items still to skip, bytes of room left, count bytes of empty lists that wait
for the next item carried, bytes so far, whether it has been cut, and the items left out at the end. -/
structure Packing where
  skip : Nat
  room : Nat
  zeros : List Byte
  out : List Byte
  full : Bool
  left : Nat
deriving DecidableEq, Repr

/-- How many of these entries, from the first, fit in the room. -/
def fitting : Nat → List (List Byte) → Nat
  | _, [] => 0
  | room, x :: xs => if x.length ≤ room then 1 + fitting (room - x.length) xs else 0

/-- A field of a long reply: skipped, carried, or the place of the cut. -/
def packField (p : Packing) (bs : List Byte) : Packing :=
  if p.full then { p with left := p.left + 1 }
  else if 0 < p.skip then { p with skip := p.skip - 1, zeros := [] }
  else if (p.zeros ++ bs).length ≤ p.room then
    { p with out := p.out ++ (p.zeros ++ bs), room := p.room - (p.zeros ++ bs).length, zeros := [] }
  else { p with full := true, left := p.left + 1 }

/-- The entries of a list that remain after the skip are carried, as many as fit, behind the count of those carried. -/
def packEntries (p : Packing) (es : List (List Byte)) : Packing :=
  let m := fitting (p.room - (p.zeros.length + 1)) es
  if m = 0 then { p with full := true, left := p.left + es.length }
  else
    let bs := p.zeros ++ [byteOf m] ++ (es.take m).flatten
    { p with out := p.out ++ bs, room := p.room - bs.length, zeros := [], full := decide (m < es.length)
             left := p.left + (es.length - m) }

/-- A list of a long reply. -/
def packList (p : Packing) (es : List (List Byte)) : Packing :=
  if p.full then { p with left := p.left + es.length }
  else
    match es with
    | [] => if 0 < p.skip then p else { p with zeros := p.zeros ++ [0] }
    | _ :: _ =>
      if es.length ≤ p.skip then { p with skip := p.skip - es.length, zeros := [] }
      else packEntries { p with skip := 0, zeros := if 0 < p.skip then [] else p.zeros } (es.drop p.skip)

/-- One part of a long reply. -/
def packPart (p : Packing) (x : Part) : Packing :=
  match x with
  | .field bs => packField p bs
  | .list es => packList p es

/-- The room for items: the record's 30 content bytes less the code, the outcome and the number left out. -/
def itemRoom : Nat := Config.recordLength - 3

/-- What a long reply carries from its byte 2: the number of items left out at the end, then the items carried (R179). -/
def packReply (skip : Nat) (parts : List Part) : List Byte :=
  let p := parts.foldl packPart { skip := skip, room := itemRoom, zeros := [], out := [], full := false, left := 0 }
  byteOf p.left :: (if !p.full && decide (p.zeros.length ≤ p.room) then p.out ++ p.zeros else p.out)

end Sys2Proof.Machine
end

