-- ==== Sys2Proof/Machine/Reads.lean ====
section
/-! DEFINITION. The commands that read, and SET_MASK: PING, READ_STATUS, READ_ZONE, READ_TRAIN, READ_SWITCH, READ_CLAIM,
READ_STEP, SET_MASK (R34, R73, R83, R111, R135, R173, R174). -/

namespace Sys2Proof.Machine

/-! ### Named values of read replies (R179: the place in the list, from 1) -/

/-- The code of a zone kind (Table 1-1, Table 13-7). -/
def zoneKindCode : ZoneKind → Byte
  | .station => 1
  | .brake => 2
  | .lift => 3
  | .launch => 4
  | .storage => 5
  | .run => 6

/-- The code of a switch kind (Table 1-2). -/
def switchKindCode : SwitchKind → Byte
  | .diverge => 1
  | .merge => 2

/-- The code of a hold (Table 2-1). -/
def holdCode : Hold → Byte
  | .held => 1
  | .released => 2

/-- The code of a supervision (Table 2-1). -/
def supervisionCode : Supervision → Byte
  | .confirmed => 1
  | .awaiting _ => 2
  | .disagree => 3

/-- The code of a train's state (Table 4-1). -/
def trainStateCode : TrainState → Byte
  | .absent => 1
  | .stored => 2
  | .standing => 3
  | .claiming => 4
  | .cleared => 5
  | .running => 6
  | .halted => 7
  | .manual => 8
  | .lost => 9

/-- An origin with its port (Table 6-1). -/
def originBytes : Origin → List Byte
  | .auto => [1, 0xFF]
  | .dispatch p => [2, byteOf p.val]
  | .move p => [3, byteOf p.val]

/-- Whom a move serves, with its claim or port (Table 8-1). -/
def servedBytes : Served → List Byte
  | .claim k => [1, k]
  | .port p => [2, byteOf p.val]
  | .none => [0, 0xFF]

/-- A switch requirement, a named value with an object: the position, then the switch's number (R179, log 8). -/
def requirementBytes (q : Requirement) : List Byte := [positionCode q.position, byteOf q.switch.val]

/-- A list inside an item: its count and its items. -/
def countedBytes (es : List (List Byte)) : List Byte := byteOf es.length :: es.flatten

/-- The kind of a frame with its remaining count, the count absent in a FOREVER one, each in its width (Table 5-4,
log 8). -/
def frameKindBytes : FrameKind → List Byte
  | .counted n => 1 :: bytes2 n
  | .forever => [2, 0xFF, 0xFF]

/-- A frame record (Table 5-4). -/
def frameBytes (f : Frame) : List Byte :=
  [byteOf f.start.val, byteOf f.endStep.val] ++ frameKindBytes f.kind ++ bytes2 f.lap ++ [flagByte f.broken]

/-- A frame operation (log 8). -/
def frameOpBytes : FrameOp → List Byte
  | .lapUp => [1]
  | .countDown => [2]
  | .pop => [3]
  | .push f => 4 :: frameBytes f

/-- A step decision: its target step and its frame operations (Table 6-1). -/
def decisionBytes (d : Decision) : List Byte := byteOf d.target.val :: countedBytes (d.ops.map frameOpBytes)

/-- A leg entry as READ_TRAIN gives it: zones, started, switch requirements, target step and origin (R73). -/
def legEntryBytes (g : LegEntry) : List Byte :=
  countedBytes (g.zones.map fun z => [byteOf z.val]) ++ [flagByte g.started] ++
    countedBytes (g.reqs.map requirementBytes) ++ [byteOf g.target.val] ++ originBytes g.origin

/-! ### PING and READ_STATUS (R174) -/

/-- What PING carries. -/
def pingData (s : State) (p : PortId) : List Byte :=
  bytes4 s.stamp ++ [byteOf p.val, byteOf (roleCode (s.role p))]

/-- PING (R174). -/
def performPing (p : PortId) (s : State) : Answer := (s, .done (pingData s p))

/-- The code of a lapse state (Table 11-1). -/
def lapseCode (lapsed : Bool) : Byte := if lapsed then 2 else 1

/-- What READ_STATUS carries, in the order of R174, and last the port's mask, which R178 has it report (log 30). The mode has
its number of R179 (log 9). -/
def statusData (s : State) (p : PortId) : List Byte :=
  let r := s.ports[p]
  [byteOf (modeNumber s.track.mode), byteOf (roleCode r.role)] ++ portIds.map (fun q => lapseCode (s.ports[q]).lapsed) ++
    [flagByte r.lapseSeen, flagByte (s.track.yields p), flagByte r.overflow, r.summary, byteOf r.commands.length,
     byteOf r.replies.length, byteOf r.notices.length, byteOf r.leaseCount, byteOf (unitCode r.leaseUnit)] ++
    optField bytes3 r.leaseRemaining ++ [r.mask]

/-- READ_STATUS clears the summary, overflow and lapse seen of its port (R174). -/
def Port.clearStatus (r : Port) : Port := { r with summary := 0, overflow := false, lapseSeen := false }

/-- READ_STATUS (R174). -/
def performReadStatus (p : PortId) (s : State) : Answer :=
  (s.modifyPort p Port.clearStatus, .done (statusData s p))

/-! ### READ_ZONE (R34) -/

/-- The train of a zone's state (Table 2-1). -/
def stateTrain : ZoneState → Option Nat
  | .reserved t => some t.val
  | .occupied t => some t.val
  | .clearing t _ => some t.val
  | .clear => none
  | .unknown => none
  | .fault _ => none
  | .handed _ => none

/-- The settle time remaining (Table 2-1). -/
def stateSettle : ZoneState → Option Nat
  | .clearing _ n => some n
  | .clear => none
  | .reserved _ => none
  | .occupied _ => none
  | .unknown => none
  | .fault _ => none
  | .handed _ => none

/-- The fault kind (Table 2-1). -/
def stateFault : ZoneState → Option ZoneFault
  | .fault k => some k
  | .clear => none
  | .reserved _ => none
  | .occupied _ => none
  | .clearing _ _ => none
  | .unknown => none
  | .handed _ => none

/-- The section port of a HANDED zone (Table 2-1). -/
def stateSection : ZoneState → Option Nat
  | .handed p => some p.val
  | .clear => none
  | .reserved _ => none
  | .occupied _ => none
  | .clearing _ _ => none
  | .unknown => none
  | .fault _ => none

/-- The confirm time remaining (Table 2-1). -/
def supervisionConfirm : Supervision → Option Nat
  | .awaiting n => some n
  | .confirmed => none
  | .disagree => none

/-- The fields of a zone's state (Table 2-1). -/
def zoneStateData (x : ZoneState) : List Byte :=
  [zoneStateCode x, optByte (stateTrain x)] ++ optField bytes3 (stateSettle x) ++
    [((stateFault x).map zoneFaultCode).getD 0xFF, optByte (stateSection x)]

/-- The hold fields (Table 2-1). -/
def brakeData (b : Option Brake) : List Byte :=
  match b with
  | some x => [holdCode x.hold, supervisionCode x.supervision] ++ optField bytes3 (supervisionConfirm x.supervision)
  | none => [0xFF, 0xFF, 0xFF]

/-- The levels of a zone's inputs; those of stop sensor and feedback are absent for a RUN zone (R34, log 25). -/
def zoneLevels (e : Env) (z : ZoneId) : List Byte :=
  flagByte (e.active (.entry z)) ::
    (if isStoppable e z then [flagByte (e.active (.stop z)), flagByte (e.active (.feedback z))] else [0xFF, 0xFF])

/-- What READ_ZONE carries. A sample is 1 for occupied and 0 for not occupied (log 8). -/
def zoneData (e : Env) (z : ZoneId) (l : ZoneLayout) (r : Zone) : List Byte :=
  [zoneKindCode l.kind] ++ zoneStateData r.state ++ brakeData r.brake ++
    countedBytes (r.history.map fun b => [flagByte b]) ++ zoneLevels e z

/-- The layout record and the zone record of a zone number (R34). -/
def State.zoneRecord (s : State) (n : Nat) : Option (ZoneId × ZoneLayout × Zone) :=
  match zoneArg n with
  | none => none
  | some z =>
    match s.layout.zones[z], s.track.zones[z] with
    | some l, some r => some (z, l, r)
    | _, _ => none

/-- READ_ZONE (R34). -/
def performReadZone (n : Nat) (s : State) : Answer :=
  if s.layout.committed = false then refuse .mode s
  else
    match s.zoneRecord n with
    | none => refuse .argument s
    | some (z, l, r) => (s, .done (zoneData s.env z l r))

/-! ### READ_TRAIN (R73) -/

/-- The fields of the route a train holds (Table 4-1); stalled is absent in LOST. -/
def rideParts (r : Train) : List Part :=
  match r.ride with
  | none => [.field [0xFF], .field [0xFF], .field [0xFF], .field [0xFF], .field [0xFF]]
  | some d =>
    [.field [byteOf d.route.val], .field [byteOf d.cursor.val], .list (d.frames.map frameBytes),
     .field [if r.state = .lost then 0xFF else flagByte d.stalled], .field [flagByte d.atEnd]]

/-- The parts of a train's reply, in the order of Table 4-1 (R73). -/
def trainParts (r : Train) : List Part :=
  [.field [trainStateCode r.state], .list (r.footprint.map fun z => [byteOf z.val]),
   .list (r.authority.map legEntryBytes)] ++ rideParts r ++
  [.field [if r.state = .absent then 0xFF else byteOf r.tag], .field [optByte (r.sectionPort.map (·.val))],
   .field (optField bytes3 r.dwell), .field (optField bytes3 r.departure), .field (optField bytes3 r.travel)]

/-- READ_TRAIN (R73). -/
def performReadTrain (n skip : Nat) (s : State) : Answer :=
  match trainArg n with
  | none => refuse .argument s
  | some t => (s, .done (packReply skip (trainParts (s.track.trains[t]))))

/-! ### READ_SWITCH (R135) -/

/-- The target of a move (Table 8-1). -/
def moveTarget : SwitchState → Option Position
  | .moving q _ _ => some q
  | .settled _ => none
  | .unknown => none
  | .failed => none

/-- The limit remaining of a move (Table 8-1). -/
def moveLimitLeft : SwitchState → Option Nat
  | .moving _ n _ => some n
  | .settled _ => none
  | .unknown => none
  | .failed => none

/-- Whom a move serves (Table 8-1). -/
def moveServed : SwitchState → Option Served
  | .moving _ _ x => some x
  | .settled _ => none
  | .unknown => none
  | .failed => none

/-- The fields of Table 8-1. -/
def switchRecordData (r : Switch) : List Byte :=
  [switchStateCode r.state, ((moveTarget r.state).map positionCode).getD 0xFF, byteOf r.attempts] ++
    optField bytes3 (moveLimitLeft r.state) ++ optField servedBytes (moveServed r.state) ++
    [optByte (r.sectionPort.map (·.val)), flagByte r.driveStraight, flagByte r.driveDiverge]

/-- What READ_SWITCH carries. -/
def switchData (e : Env) (w : Track) (n : SwitchId) (l : SwitchLayout) (r : Switch) : List Byte :=
  [switchKindCode l.kind, byteOf l.root.val, byteOf l.straight.val, byteOf l.diverge.val] ++ switchRecordData r ++
    [flagByte (isLocked e w n)] ++ countedBytes ((lockingTrains e w n).map fun t => [byteOf t.val]) ++
    [flagByte (e.active (.position n .straight)), flagByte (e.active (.position n .diverge))]

/-- The layout record and the switch record of a switch number. -/
def State.switchRecord (s : State) (n : Nat) : Option (SwitchId × SwitchLayout × Switch) :=
  match switchArg n with
  | none => none
  | some k =>
    match s.layout.switches[k], s.track.switches[k] with
    | some l, some r => some (k, l, r)
    | _, _ => none

/-- READ_SWITCH (R135). -/
def performReadSwitch (n : Nat) (s : State) : Answer :=
  if s.layout.committed = false then refuse .mode s
  else
    match s.switchRecord n with
    | none => refuse .argument s
    | some (k, l, r) => (s, .done (switchData s.env s.track k l r))

/-! ### READ_CLAIM (R111) -/

/-- The state of a claim with its awaited switches (Table 6-1). -/
def claimAwaited : ClaimState → Part
  | .waiting => .field [0xFF]
  | .setting ns => .list (ns.map fun n => [byteOf n.val])

/-- The fields that depend on a claim's kind, from kind to step decision (Table 6-1). -/
def claimBodyParts : ClaimBody → List Part
  | .leg g =>
    [.field [1], .field [byteOf g.train.val], .field (originBytes g.origin), .list (g.zones.map fun z => [byteOf z.val]),
     .field [byteOf g.start.val], .list (g.reqs.map requirementBytes), .field [0xFF], .field (decisionBytes g.decision)]
  | .sectionOf g =>
    [.field [2], .field [byteOf g.port.val], .field [0xFF], .list (g.zones.map fun z => [byteOf z.val]), .field [0xFF],
     .field [0xFF], .list (g.switches.map fun n => [byteOf n.val]), .field [0xFF]]

/-- The fields of a claim, in the order of Table 6-1, and whether it is barred (R111). -/
def claimParts (l : Layout) (c : Claim) (inList : Bool) : List Part :=
  [.field [c.seq]] ++ claimBodyParts c.body ++
    [.field [if c.isWaiting then 1 else 2], .field [if inList then 1 else 2], claimAwaited c.state,
     .field (optField bytes3 c.wait), .field [byteOf c.bypass], .field [flagByte (inList && barred l c)]]

/-- READ_CLAIM (R111): the two counts, and the claim at the position, if one stands there. -/
def performReadClaim (n skip : Nat) (s : State) : Answer :=
  let counts := [Part.field [byteOf s.track.claims.length], Part.field [byteOf s.track.line.length]]
  match s.track.allClaims[n]? with
  | none => (s, .done (packReply skip counts))
  | some c =>
    (s, .done (packReply skip (counts ++ claimParts s.layout c (decide (n < s.track.claims.length)))))

/-! ### READ_STEP (R83) -/

/-- The state, step count and WIDE flag of a route (R83, Table 13-8). -/
def routeStateData : RouteState → List Byte
  | .empty => [0, 0xFF, 0xFF]
  | .draft => [1, 0xFF, 0xFF]
  | .sealed n wide => [2, byteOf n, flagByte wide]

/-- The action and the dwell of a step (Table 13-8); a step that carries no dwell has the dwell absent. -/
def actionBytes : StepAction → List Byte
  | .pass => [1, 0xFF]
  | .hold d => [2, byteOf d]
  | .dispatch => [3, 0xFF]
  | .park => [4, 0xFF]

/-- The opener, count and end step of a step (Table 13-8). -/
def openerBytes : Option Opener → List Byte
  | none => [0, 0xFF, 0xFF]
  | some o =>
    match o.kind with
    | .counted n => [1, byteOf n, byteOf o.endStep.val]
    | .forever => [2, 0xFF, byteOf o.endStep.val]

/-- The loaded flag and the eight fields of LOAD_STEP (Table 13-8). -/
def stepData (r : RouteId) (k : StepId) (x : Option RouteStep) : List Byte :=
  match x with
  | none => [0, byteOf r.val, byteOf k.val, 0xFF, 0, 0xFF, 0, 0xFF, 0xFF]
  | some y => [1, byteOf r.val, byteOf k.val, byteOf y.zone.val] ++ actionBytes y.action ++ openerBytes y.opener

/-- READ_STEP (R83). -/
def performReadStep (n m : Nat) (s : State) : Answer :=
  match routeArg n, stepArg m with
  | some r, some k =>
    (s, .done (routeStateData (s.routes[r]).state ++ [byteOf (holders s.track r).length] ++
      stepData r k ((s.routes[r]).slots[k])))
  | _, _ => refuse .argument s

/-! ### SET_MASK (R173) -/

/-- SET_MASK (R173). Bit 7 names no class (R178). -/
def performSetMask (p : PortId) (m : Nat) (s : State) : Answer :=
  if 128 ≤ m then refuse .argument s
  else doneWith (s.modifyPort p fun r => { r with mask := byteOf m })

end Sys2Proof.Machine
end

