-- ==== Sys2Proof/Machine/Routing.lean ====
section
/-! DEFINITION. The route commands: LOAD_STEP, CLEAR_ROUTE, and SEAL_ROUTE with its eight checks (R78 to R82). -/

namespace Sys2Proof.Machine

/-- The examination a route command begins with: ROLE, then MODE (R78, R79, R80). -/
def routeRefusal (p : PortId) (s : State) : Option Reason :=
  if p ≠ 0 then some .role else if s.layout.committed = false then some .mode else none

/-- A route is replaced. -/
def State.setRoute (s : State) (r : RouteId) (x : Route) : State := { s with routes := s.routes.set r x }

/-! ### LOAD_STEP (R78) -/

/-- The action a step stores: the dwell of a HOLD step alone (R78). -/
def storedAction (dwell : Nat) : Action → Option StepAction
  | .pass => some .pass
  | .hold => if inRange 0 255 dwell then some (.hold dwell) else none
  | .dispatch => some .dispatch
  | .park => some .park

/-- The count of an opener lies in its range (R78). -/
def openerCountOk : OpenerKind → Bool
  | .counted n => inRange 0 255 n
  | .forever => true

/-- The opener a step stores at step `k`: its end step lies beyond (R78). -/
def storedOpener (k : StepId) (o : Option (OpenerKind × Nat)) : Option (Option Opener) :=
  match o with
  | none => some none
  | some (kind, n) =>
    match stepArg n with
    | some e => if k < e ∧ openerCountOk kind = true then some (some { kind := kind, endStep := e }) else none
    | none => none

/-- The slot LOAD_STEP leaves behind: a step record, or an empty one with the action NONE; none where a field is refused. Zone
and dwell are not examined with NONE, the opener always is (R78, log 11). -/
def slotOf (l : Layout) (k : StepId) (f : StepFields) : Option (Option RouteStep) :=
  match storedOpener k f.opener with
  | none => none
  | some o =>
    match f.action with
    | none => some none
    | some x =>
      match zoneArg f.zone, storedAction f.dwell x with
      | some z, some a => if l.isStop z then some (some { zone := z, action := a, opener := o }) else none
      | _, _ => none

/-- No slot of the route is loaded. -/
def slotsEmpty (v : Vector (Option RouteStep) 16) : Bool := stepIds.all fun k => (v[k]).isNone

/-- A route whose slot has been written or emptied: DRAFT, or EMPTY when no slot is loaded (R78). -/
def redraft (v : Vector (Option RouteStep) 16) : Route :=
  { state := if slotsEmpty v then .empty else .draft, slots := v }

/-- What LOAD_STEP writes into its slot; none where ARGUMENT applies (R78). -/
def stepSlot (l : Layout) (n m : Nat) (f : StepFields) : Option (RouteId × StepId × Option RouteStep) :=
  match routeArg n, stepArg m with
  | some r, some k => (slotOf l k f).map fun y => (r, k, y)
  | _, _ => none

/-- LOAD_STEP (R78). -/
def performLoadStep (p : PortId) (n m : Nat) (f : StepFields) (s : State) : Answer :=
  match routeRefusal p s with
  | some x => refuse x s
  | none =>
    match stepSlot s.layout n m f with
    | none => refuse .argument s
    | some (r, k, x) =>
      if routeHeld s.track r then refuse .busy s
      else doneWith (s.setRoute r (redraft ((s.routes[r]).slots.set k x)))

/-! ### CLEAR_ROUTE (R79) -/

/-- CLEAR_ROUTE (R79). -/
def performClearRoute (p : PortId) (n : Nat) (s : State) : Answer :=
  match routeRefusal p s with
  | some x => refuse x s
  | none =>
    match routeArg n with
    | none => refuse .argument s
    | some r => if routeHeld s.track r then refuse .busy s else doneWith (s.setRoute r Route.cleared)

/-! ### The seal checks (R81, R82) -/

/-- The opener of a step. -/
def Route.opener (r : Route) (k : StepId) : Option Opener := (r.slots[k]).bind (·.opener)

/-- The zone of a step. -/
def Route.zoneOf (r : Route) (k : StepId) : Option ZoneId := (r.slots[k]).map (·.zone)

/-- The action of a step. -/
def Route.actionOf (r : Route) (k : StepId) : Option StepAction := (r.slots[k]).map (·.action)

/-- The steps of a route of `n` steps. -/
def stepsBelow (n : Nat) : List StepId := stepIds.filter fun k => decide (k.val < n)

/-- Check 1: steps complete (R81, Table 5-3). -/
def sealCheck1 (r : Route) (n : Nat) : Option StepId :=
  match (stepsBelow n).find? fun k => (r.slots[k]).isNone with
  | some k => some k
  | none => stepIds.find? fun k => decide (n ≤ k.val) && (r.slots[k]).isSome

/-- Check 2: openers within the route (R81). -/
def sealCheck2 (r : Route) (n : Nat) : Option StepId :=
  stepIds.find? fun k =>
    match r.opener k with
    | some o => decide (n ≤ o.endStep.val)
    | none => false

/-- Two openers cross, the first at an earlier step (R81, check 3). -/
def openersCross (r : Route) (a b : StepId) : Bool :=
  match r.opener a, r.opener b with
  | some x, some y => decide (a < b) && decide (b ≤ x.endStep) && decide (x.endStep ≤ y.endStep)
  | _, _ => false

/-- Check 3: openers nest (R81). -/
def sealCheck3 (r : Route) : Option StepId := stepIds.find? fun b => stepIds.any fun a => openersCross r a b

/-- The openers whose range contains a step (R81, check 4). -/
def coverCount (r : Route) (k : StepId) : Nat :=
  (stepIds.filter fun a =>
    match r.opener a with
    | some o => decide (a ≤ k) && decide (k ≤ o.endStep)
    | none => false).length

/-- Check 4: nesting depth (R81). -/
def sealCheck4 (r : Route) : Option StepId := stepIds.find? fun k => decide (4 < coverCount r k)

/-- The forward successor of a step (R81). -/
def forwardSuccessor (r : Route) (n : Nat) (wide : Bool) (i : StepId) : Option StepId :=
  (forwardTo r n wide skipFuel (i.val + 1)).map (·.1)

/-- A passage from one step to another is no leg: the zones are one, or no leg joins them (R82). -/
def badPassage (l : Layout) (r : Route) (i j : StepId) : Bool :=
  match r.zoneOf i, r.zoneOf j with
  | some a, some b => decide (a = b) || (legBetween l a b).isNone
  | _, _ => true

/-- Check 5: forward passages are legs (R82). -/
def sealCheck5 (l : Layout) (r : Route) (n : Nat) (wide : Bool) : Option StepId :=
  (stepsBelow n).find? fun i =>
    match forwardSuccessor r n wide i with
    | some j => badPassage l r i j
    | none => false

/-- The frame of an opener can go round more than once (R82, check 6). -/
def loopsBack (wide : Bool) (o : Opener) : Bool :=
  match o.kind with
  | .forever => true
  | .counted c => decide (2 ≤ c) || (decide (c = 0) && wide)

/-- Check 6: loop-back passages are legs (R82). -/
def sealCheck6 (l : Layout) (r : Route) (wide : Bool) : Option StepId :=
  stepIds.find? fun k =>
    match r.opener k with
    | some o => loopsBack wide o && badPassage l r o.endStep k
    | none => false

/-- Check 7: DISPATCH steps have a station with an owner (R82). -/
def sealCheck7 (l : Layout) (r : Route) : Option StepId :=
  stepIds.find? fun k =>
    decide (r.actionOf k = some .dispatch) &&
    match (r.zoneOf k).bind fun z => l.zones[z] with
    | some x => !decide (x.kind = .station) || x.owner.isNone
    | none => true

/-- Check 8: PARK steps have an owner of role TRANSFER (R82). -/
def sealCheck8 (l : Layout) (r : Route) : Option StepId :=
  stepIds.find? fun k =>
    decide (r.actionOf k = some .park) &&
    match ((r.zoneOf k).bind fun z => l.zones[z]).bind (·.owner) with
    | some p => !decide (l.roles[p] = .transfer)
    | none => true

/-- A seal check with its number, where it fails. -/
def sealFailed (n : Nat) (c : Option StepId) : Option (Nat × CheckSubject) := c.map fun k => (n, .step k)

/-- The first seal check that fails, in the order of Table 5-3 (R80). -/
def sealChecks (l : Layout) (r : Route) (n : Nat) (wide : Bool) : Option (Nat × CheckSubject) :=
  sealFailed 1 (sealCheck1 r n) <|> sealFailed 2 (sealCheck2 r n) <|> sealFailed 3 (sealCheck3 r) <|>
  sealFailed 4 (sealCheck4 r) <|> sealFailed 5 (sealCheck5 l r n wide) <|> sealFailed 6 (sealCheck6 l r wide) <|>
  sealFailed 7 (sealCheck7 l r) <|> sealFailed 8 (sealCheck8 l r)

/-- The validation of SEAL_ROUTE and its effect (R80, step 6). -/
def sealDraft (r : RouteId) (n : Nat) (wide : Bool) (s : State) : Answer :=
  match sealChecks s.layout (s.routes[r]) n wide with
  | some (k, x) => (s, .invalid k x)
  | none => doneWith (s.setRoute r { s.routes[r] with state := .sealed n wide })

/-- SEAL_ROUTE (R80). -/
def performSealRoute (p : PortId) (n count : Nat) (wide : Bool) (s : State) : Answer :=
  match routeRefusal p s with
  | some x => refuse x s
  | none =>
    match routeArg n with
    | none => refuse .argument s
    | some r =>
      if inRange 1 16 count = false then refuse .argument s
      else if routeHeld s.track r then refuse .busy s
      else
        match (s.routes[r]).state with
        | .draft => sealDraft r count wide s
        | .empty => refuse .state s
        | .sealed _ _ => refuse .state s

end Sys2Proof.Machine
end

