-- ==== Sys2Proof/Machine/TrainOrders.lean ====
section
/-! DEFINITION. The supervisor's commands on trains, zones and switches: PLACE_TRAIN, ASSIGN_ROUTE, RETIRE_TRAIN,
ASSERT_ZONE, PROCEED, BREAK_LOOP, RESET_SWITCH (R25, R69 to R72, R91, R132). -/

namespace Sys2Proof.Machine

/-- The examination these commands begin with: ROLE, then MODE while uncommitted. -/
def orderRefusal (p : PortId) (s : State) : Option Reason :=
  if p ≠ 0 then some .role else if s.layout.committed = false then some .mode else none

/-! ### PLACE_TRAIN (R69) -/

/-- The step count of a SEALED route. -/
def sealedCount (r : Route) : Option Nat :=
  match r.state with
  | .sealed n _ => some n
  | .draft => none
  | .empty => none

/-- A step of a SEALED route whose zone is this one: not beyond the last step (R69, R70). -/
def stepAt (r : Route) (n : Nat) (z : ZoneId) : Option StepId :=
  match sealedCount r, stepArg n with
  | some c, some k =>
    if n < c ∧ ((r.slots[k]).map (·.zone)) = some z then some k else none
  | _, _ => none

/-- A train that starts a route at a step: empty stack with the step's opener applied, flags clear (R69, R70, R86). -/
def startRide (r : RouteId) (x : Route) (k : StepId) : Ride :=
  { route := r, cursor := k, frames := placedFrames x k, stalled := false, atEnd := false }

/-- A zone a train may be placed in: CLEAR, UNKNOWN or FAULT (R69, step 4). -/
def placeable : Option ZoneState → Bool
  | some .clear => true
  | some .unknown => true
  | some (.fault _) => true
  | some (.reserved _) => false
  | some (.occupied _) => false
  | some (.clearing _ _) => false
  | some (.handed _) => false
  | none => false

/-- A train that may be placed: ABSENT or LOST (R69, step 4). -/
def Train.unplaced (r : Train) : Bool := decide (r.state = .absent) || decide (r.state = .lost)

/-- The route option names an object that exists (R69, step 3). -/
def optionRoute (o : RouteOption) : Option (Option RouteId) :=
  match o with
  | .none => some none
  | .keep => some none
  | .at r _ => (routeArg r).map some

/-- The STATE conditions of a route option (R69, step 4). -/
def optionState (e : Env) (r : Train) (o : RouteOption) : Bool :=
  match o with
  | .none => true
  | .keep => !decide (r.state = .absent) && r.ride.isSome
  | .at n _ =>
    match routeArg n with
    | some k => (sealedCount (e.routes[k])).isSome
    | none => false

/-- What a route option makes of a train placed in `z`: its state and its ride; none where ARGUMENT applies (R69, step 5
and effect 3). -/
def placement (e : Env) (r : Train) (z : ZoneId) (o : RouteOption) : Option (TrainState × Option Ride) :=
  match o with
  | .none => some (.stored, none)
  | .keep =>
    if ((e.cursorStep r).map (·.zone)) = some z then
      some (.standing, r.ride.map fun d => { d with stalled := false })
    else none
  | .at n m =>
    match routeArg n with
    | none => none
    | some k => (stepAt (e.routes[k]) m z).map fun q => (.standing, some (startRide k (e.routes[k]) q))

/-- The train's record after a placement (R69). -/
def placedTrain (z : ZoneId) (tag : Nat) (q : TrainState × Option Ride) : Train :=
  { state := q.1, footprint := [z], authority := [], ride := q.2, tag := tag, sectionPort := none
    dwell := none, departure := none, travel := none }

/-- A train that has become STANDING acts on its cursor step (R69, effect 4). -/
def actIfStanding (e : Env) (t : TrainId) (w : Work) : Work :=
  if (w.trains[t]).state = .standing then actOnStep e t w else w

/-- A placement takes effect (R69). -/
def place (t : TrainId) (z : ZoneId) (tag : Nat) (q : TrainState × Option Ride) (e : Env) (w : Work) : Work :=
  closeEvent e (actIfStanding e t ((w.setZone z (.occupied t)).setTrain t (placedTrain z tag q)))

/-- A placement past ROLE, MODE and ARGUMENT (R69, steps 4 and 5). -/
def tryPlace (t : TrainId) (z : ZoneId) (tag : Nat) (o : RouteOption) (s : State) : Answer :=
  if ((s.track.trains[t]).unplaced && placeable (s.track.zoneState z) &&
      optionState s.env (s.track.trains[t]) o) = false then refuse .state s
  else
    match placement s.env (s.track.trains[t]) z o with
    | none => refuse .argument s
    | some q => doneWith (s.run (place t z tag q))

/-- A stoppable zone of the layout (R69, step 3): one whose slot holds such a record, committed or not (R142, log 31). -/
def stopZoneArg (l : Layout) (n : Nat) : Option ZoneId :=
  match zoneArg n with
  | some z => if l.isStop z then some z else none
  | none => none

/-- PLACE_TRAIN (R69). -/
def performPlaceTrain (p : PortId) (n zone tag : Nat) (o : RouteOption) (s : State) : Answer :=
  match orderRefusal p s with
  | some x => refuse x s
  | none =>
    match trainArg n, stopZoneArg s.layout zone, optionRoute o with
    | some t, some z, some _ => tryPlace t z tag o s
    | _, _, _ => refuse .argument s

/-! ### ASSIGN_ROUTE (R70) -/

/-- A STORED train takes a route at a step, and acts on it (R70). -/
def assign (t : TrainId) (d : Ride) (e : Env) (w : Work) : Work :=
  closeEvent e (actOnStep e t (w.modifyTrain t fun r => { r with state := .standing, ride := some d }))

/-- An assignment past ROLE, MODE and ARGUMENT (R70, steps 4 and 5). -/
def tryAssign (t : TrainId) (r : RouteId) (m : Nat) (s : State) : Answer :=
  if (s.track.trains[t]).state ≠ .stored ∨ (sealedCount (s.routes[r])).isNone = true then refuse .state s
  else
    match (s.track.trains[t]).rest.bind fun z => stepAt (s.routes[r]) m z with
    | none => refuse .argument s
    | some k => doneWith (s.run (assign t (startRide r (s.routes[r]) k)))

/-- ASSIGN_ROUTE (R70). -/
def performAssignRoute (p : PortId) (n route m : Nat) (s : State) : Answer :=
  match orderRefusal p s with
  | some x => refuse x s
  | none =>
    match trainArg n, routeArg route with
    | some t, some r => tryAssign t r m s
    | _, _ => refuse .argument s

/-! ### RETIRE_TRAIN (R71) -/

/-- A train is stored where it stands; a dispatch or move in progress is aborted with the cause RETIRE (R71, R121). -/
def retireStore (t : TrainId) (e : Env) (w : Work) : Work :=
  let o := progressOrigin w.toTrack t
  let w1 := removeEntries t 0 (withdrawAll (fun c => c.isLegOf t) w)
  closeEvent e
    (postAbort t o .retire
      (w1.modifyTrain t fun r => { r.dropTimers with state := .stored, authority := [], ride := none }))

/-- The zone a train rests in becomes UNKNOWN, if it rests (R71). -/
def vacateUnknown (r : Train) (w : Work) : Work :=
  match r.rest with
  | some z => w.setZone z .unknown
  | none => w

/-- A train is taken off the table; the zone of a STORED one becomes UNKNOWN (R71). -/
def retireRemove (t : TrainId) (e : Env) (w : Work) : Work :=
  closeEvent e ((vacateUnknown (w.trains[t]) w).setTrain t Train.gone)

/-- RETIRE_TRAIN past ROLE, MODE and ARGUMENT (R71). -/
def tryRetire (t : TrainId) (d : Disposition) (s : State) : Answer :=
  match d, (s.track.trains[t]).state with
  | .store, .standing => doneWith (s.run (retireStore t))
  | .store, .claiming => doneWith (s.run (retireStore t))
  | .remove, .stored => doneWith (s.run (retireRemove t))
  | .remove, .lost => doneWith (s.run (retireRemove t))
  | _, _ => refuse .state s

/-- RETIRE_TRAIN (R71). -/
def performRetireTrain (p : PortId) (n d : Nat) (s : State) : Answer :=
  match orderRefusal p s with
  | some x => refuse x s
  | none =>
    match trainArg n, dispositionArg d with
    | some t, some q => tryRetire t q s
    | _, _ => refuse .argument s

/-! ### ASSERT_ZONE (R25) -/

/-- The code of the declaration EMPTY (log 9). -/
def emptyCode : Nat := 1

/-- A zone of the layout by its number. -/
def definedZoneArg (l : Layout) (n : Nat) : Option ZoneId :=
  match zoneArg n with
  | some z => if l.defines z then some z else none
  | none => none

/-- A zone is UNKNOWN or FAULT. -/
def doubtful : Option ZoneState → Bool
  | some .unknown => true
  | some (.fault _) => true
  | some .clear => false
  | some (.reserved _) => false
  | some (.occupied _) => false
  | some (.clearing _ _) => false
  | some (.handed _) => false
  | none => false

/-- The STATE conditions of ASSERT_ZONE (R25, step 4). -/
def assertable (e : Env) (w : Track) (z : ZoneId) : Bool :=
  doubtful (w.zoneState z) && !stopActive e z && !trackerBusy w z

/-- A zone is asserted empty (R25). -/
def assertEmpty (z : ZoneId) (e : Env) (w : Work) : Work := closeEval e (w.setZone z .clear)

/-- ASSERT_ZONE (R25). -/
def performAssertZone (p : PortId) (n d : Nat) (s : State) : Answer :=
  match orderRefusal p s with
  | some x => refuse x s
  | none =>
    match definedZoneArg s.layout n with
    | none => refuse .argument s
    | some z =>
      if d ≠ emptyCode then refuse .argument s
      else if assertable s.env s.track z then doneWith (s.run (assertEmpty z))
      else refuse .state s

/-! ### PROCEED (R72) -/

/-- A cursor step at which a train waits for its master. -/
def awaitsMaster : Option StepAction → Bool
  | some .dispatch => true
  | some .park => true
  | some .pass => false
  | some (.hold _) => false
  | none => false

/-- The STATE conditions of PROCEED (R72, step 4). -/
def mayProceed (e : Env) (r : Train) : Bool :=
  decide (r.state = .standing) && !r.atEnd && !awaitsMaster (e.cursorAction r)

/-- PROCEED takes effect: stalled cleared, the dwell dropped, a claim formed (R72). -/
def proceed (t : TrainId) (e : Env) (w : Work) : Work :=
  closeEval e
    (formAtRest e t .auto none
      (w.modifyTrain t fun r => { r.mapRide fun d => { d with stalled := false } with dwell := none }))

/-- PROCEED (R72). -/
def performProceed (p : PortId) (n : Nat) (s : State) : Answer :=
  if p ≠ 0 then refuse .role s
  else if s.track.mode ≠ .operating then refuse .mode s
  else
    match trainArg n with
    | none => refuse .argument s
    | some t =>
      if mayProceed s.env (s.track.trains[t]) then (s.run (proceed t), .accepted) else refuse .state s

/-! ### BREAK_LOOP (R91) -/

/-- The break pending flag of a frame is set. -/
def Frame.break (f : Frame) : Frame := { f with broken := true }

/-- The break pending flag of a train's innermost frame is set (R91). -/
def Train.breakLoop (r : Train) : Train := r.mapRide fun d => { d with frames := onInnermost Frame.break d.frames }

/-- The committed frame stack of a train. -/
def Train.frames (r : Train) : List Frame := (r.ride.map (·.frames)).getD []

/-- BREAK_LOOP (R91). -/
def performBreakLoop (p : PortId) (n : Nat) (s : State) : Answer :=
  match orderRefusal p s with
  | some x => refuse x s
  | none =>
    match trainArg n with
    | none => refuse .argument s
    | some t =>
      if (s.track.trains[t]).frames.isEmpty then refuse .state s
      else doneWith (s.run fun _ w => w.modifyTrain t Train.breakLoop)

/-! ### RESET_SWITCH (R132) -/

/-- A switch of the layout, with its record. -/
def definedSwitchArg (w : Track) (n : Nat) : Option (SwitchId × Switch) :=
  match switchArg n with
  | some k => (w.switches[k]).map fun r => (k, r)
  | none => none

/-- The position inputs are read again (R126, R132). -/
def resetSwitch (n : SwitchId) (e : Env) (w : Work) : Work := closeEvent e (abandonMove e n w)

/-- RESET_SWITCH (R132). -/
def performResetSwitch (p : PortId) (n : Nat) (s : State) : Answer :=
  match orderRefusal p s with
  | some x => refuse x s
  | none =>
    match definedSwitchArg s.track n with
    | none => refuse .argument s
    | some (k, r) =>
      if r.isMoving then refuse .busy s
      else if isLocked s.env s.track k || r.sectionPort.isSome then refuse .state s
      else doneWith (s.run (resetSwitch k))

end Sys2Proof.Machine
end

