-- ==== Sys2Proof/Machine/SectionOrders.lean ====
section
/-! DEFINITION. The commands of section masters: REQUEST_SECTION, CANCEL_SECTION, RETURN_SECTION, SET_HOLD, MOVE_SWITCH
(R133, R138, R139, R142, R143). -/

namespace Sys2Proof.Machine

/-- A port that may hold a section: the supervisor's, or one of role TRANSFER (R138, R139, R142, R143, R133). -/
def mayHoldSection (s : State) (p : PortId) : Bool := decide (p = 0) || decide (s.role p = .transfer)

/-- Every number of a list passes a range check. -/
def allArgs {α β : Type} (f : α → Option β) : List α → Option (List β)
  | [] => some []
  | x :: xs =>
    match f x, allArgs f xs with
    | some y, some ys => some (y :: ys)
    | _, _ => none

/-- No member of the list comes twice. -/
def distinct {α : Type} [DecidableEq α] : List α → Bool
  | [] => true
  | x :: xs => !decide (x ∈ xs) && distinct xs

/-! ### REQUEST_SECTION (R138) -/

/-- The zones of a request: one to eight defined zones, each once (R138, step 3). -/
def sectionZones (l : Layout) (zs : List Nat) : Option (List ZoneId) :=
  match allArgs (definedZoneArg l) zs with
  | none => none
  | some ys => if inRange 1 8 ys.length && distinct ys then some ys else none

/-- A wait limit, when one is given, is of 1 to 255 s; in milliseconds (R138, R108). -/
def sectionWait (w : Option Nat) : Option (Option Nat) :=
  match w with
  | none => some none
  | some n => if inRange 1 255 n then some (some (n * 1000)) else none

/-- The section switches of some zones: those whose root and both leaves are among them (R138). -/
def sectionSwitches (l : Layout) (zs : List ZoneId) : List SwitchId :=
  switchIds.filter fun n =>
    match l.switches[n] with
    | none => false
    | some w => decide (w.root ∈ zs) && decide (w.straight ∈ zs) && decide (w.diverge ∈ zs)

/-- A request takes effect (R138). -/
def requestSection (p : PortId) (zs : List ZoneId) (wait : Option Nat) (e : Env) (w : Work) : Work :=
  closeEval e
    ((arriveClaim (.sectionOf { port := p, zones := zs, switches := sectionSwitches e.layout zs }) wait w).setSection p
      .claimed)

/-- REQUEST_SECTION past ROLE and MODE (R138, steps 3 to 5). -/
def tryRequest (p : PortId) (mark : Bool) (zones : List Nat) (wait : Option Nat) (s : State) : Answer :=
  match sectionZones s.layout zones, sectionWait wait with
  | some zs, some w =>
    if s.track.sections[p] ≠ .none then refuse .state s
    else if mark then refuse .state s
    else (s.run (requestSection p zs w), .accepted)
  | _, _ => refuse .argument s

/-- REQUEST_SECTION (R138). -/
def performRequestSection (p : PortId) (mark : Bool) (zones : List Nat) (wait : Option Nat) (s : State) : Answer :=
  if mayHoldSection s p = false then refuse .role s
  else if s.layout.committed = false then refuse .mode s
  else tryRequest p mark zones wait s

/-! ### CANCEL_SECTION (R139) -/

/-- A SECTION claim is withdrawn by its port (R139). -/
def cancelSection (p : PortId) (e : Env) (w : Work) : Work :=
  closeEval e ((withdrawAll (fun c => c.isSectionOf p) w).setSection p .none)

/-- CANCEL_SECTION (R139). -/
def performCancelSection (p : PortId) (s : State) : Answer :=
  if mayHoldSection s p = false then refuse .role s
  else
    match s.track.sections[p] with
    | .claimed => doneWith (s.run (cancelSection p))
    | .none => refuse .state s
    | .held _ => refuse .state s

/-! ### RETURN_SECTION (R143) -/

/-- A declaration with its numbers checked: a zone of the section, and EMPTY or a train (R143, step 3). -/
def declarationArg (h : HeldSection) (d : Nat × Declared) : Option Declaration :=
  match zoneArg d.1 with
  | none => none
  | some z =>
    if z ∈ h.zones then
      match d.2 with
      | .empty => some (z, none)
      | .train n => (trainArg n).map fun t => (z, some t)
    else none

/-- The declarations of a return; none where ARGUMENT applies (R143, step 3). -/
def declarationArgs (h : HeldSection) (ds : List (Nat × Declared)) : Option (List Declaration) :=
  match allArgs (declarationArg h) ds with
  | none => none
  | some xs => if distinct (xs.map (·.1)) then some xs else none

/-- The outcome of one zone, as the reply gives it: its state, and the train or the reason (R143, log 10). -/
def judgedBytes (q : ZoneId × Judged) : List Byte :=
  match q.2 with
  | .clear => [zoneStateCode .clear, 0xFF]
  | .occupied t => [zoneStateCode (.occupied t), byteOf t.val]
  | .unknown r => [zoneStateCode .unknown, mismatchCode r]

/-- What the reply to RETURN_SECTION carries (R143). -/
def returnData (js : List (ZoneId × Judged)) : List Byte := byteOf js.length :: js.flatMap judgedBytes

/-- A return takes effect (R143). -/
def takeReturn (p : PortId) (h : HeldSection) (ds : List Declaration) (e : Env) (w : Work) : Work :=
  closeEvent e (returnSection e p h ds w)

/-- RETURN_SECTION (R143). -/
def performReturnSection (p : PortId) (ds : List (Nat × Declared)) (s : State) : Answer :=
  if mayHoldSection s p = false then refuse .role s
  else
    match s.track.heldSection p with
    | none => refuse .state s
    | some h =>
      match declarationArgs h ds with
      | none => refuse .argument s
      | some xs => (s.run (takeReturn p h xs), .done (returnData (judgeAll s.env s.track p xs h.zones)))

/-! ### SET_HOLD (R142) -/

/-- The hold request of one zone is replaced. -/
def HeldSection.withRequest (h : HeldSection) (z : ZoneId) (x : Hold) : HeldSection :=
  { h with requests := h.requests.map fun q => if q.1 = z then (z, x) else q }

/-- A hold request takes effect (R142). -/
def setHold (p : PortId) (h : HeldSection) (z : ZoneId) (x : Hold) (e : Env) (w : Work) : Work :=
  applyRelease e (w.setSection p (.held (h.withRequest z x)))

/-- SET_HOLD past ROLE and ARGUMENT (R142, steps 3 and 4). -/
def trySetHold (p : PortId) (z : ZoneId) (x : Hold) (s : State) : Answer :=
  match s.track.zoneState z, s.track.heldSection p with
  | some (.handed q), some h =>
    if q ≠ p then refuse .state s
    else if s.track.mode = .estopped then refuse .mode s
    else doneWith (s.run (setHold p h z x))
  | _, _ => refuse .state s

/-- SET_HOLD (R142). -/
def performSetHold (p : PortId) (n r : Nat) (s : State) : Answer :=
  if mayHoldSection s p = false then refuse .role s
  else
    match stopZoneArg s.layout n, holdArg r with
    | some z, some x => trySetHold p z x s
    | _, _ => refuse .argument s

/-! ### MOVE_SWITCH (R133) -/

/-- A section's master starts a move (R128, R133). -/
def moveFor (p : PortId) (n : SwitchId) (q : Position) (e : Env) (w : Work) : Work :=
  arrivals e 4 (applyRelease e (startMove e n q (.port p) w))

/-- A switch of the layout by its number (R133, step 2): one whose slot holds a record, committed or not (log 31). -/
def layoutSwitchArg (l : Layout) (n : Nat) : Option SwitchId :=
  match switchArg n with
  | some k => if (l.switches[k]).isSome then some k else none
  | none => none

/-- MOVE_SWITCH past ROLE and ARGUMENT (R133, steps 3 to 5). -/
def tryMoveSwitch (p : PortId) (n : SwitchId) (q : Position) (s : State) : Answer :=
  match s.track.switches[n] with
  | none => refuse .state s
  | some r =>
    if r.sectionPort ≠ some p then refuse .state s
    else if s.track.mode = .estopped then refuse .mode s
    else if r.isMoving then refuse .busy s
    else if r.state = .settled q then doneWith s
    else (s.run (moveFor p n q), .accepted)

/-- MOVE_SWITCH (R133). -/
def performMoveSwitch (p : PortId) (n q : Nat) (s : State) : Answer :=
  if mayHoldSection s p = false then refuse .role s
  else
    match layoutSwitchArg s.layout n, positionArg q with
    | some k, some x => tryMoveSwitch p k x s
    | _, _ => refuse .argument s

end Sys2Proof.Machine
end

