-- ==== Sys2Proof/Machine/StationOrders.lean ====
section
/-! DEFINITION. The commands of station and transfer masters on trains at rest: DISPATCH, CANCEL_DISPATCH, MOVE (R116,
R120, R123). -/

namespace Sys2Proof.Machine

/-- A STATION zone of the layout (R116, step 2). -/
def stationZoneArg (l : Layout) (n : Nat) : Option ZoneId :=
  match zoneArg n with
  | some z => if (l.zones[z]).map (·.kind) = some .station then some z else none
  | none => none

/-- The owner port of a zone of the layout. -/
def Layout.ownerOf (l : Layout) (z : ZoneId) : Option PortId := (l.zones[z]).bind (·.owner)

/-- A train STANDING at rest in the zone at a step of this action, with at-end clear (R116, R123, step 6). -/
def standingFor (e : Env) (w : Track) (z : ZoneId) (a : StepAction) : Option TrainId :=
  match occupant w z with
  | none => none
  | some t =>
    if (w.trains[t]).state = .standing ∧ e.cursorAction (w.trains[t]) = some a ∧ (w.trains[t]).atEnd = false then some t
    else none

/-- The READY input of a STATION zone is active (R116, step 7). -/
def readyActive (e : Env) (z : ZoneId) : Bool :=
  match (e.zone z).bind (·.ready) with
  | some i => e.active (.ready i)
  | none => false

/-- The train with its stalled flag cleared (R116, R123). -/
def clearStalled (t : TrainId) (w : Work) : Work :=
  w.modifyTrain t fun r => r.mapRide fun d => { d with stalled := false }

/-- An accepted DISPATCH or MOVE: the claim is formed and the reply is ACCEPTED, or the route's end is met and the reply is
DONE (R116, R123). No claim at all does not arise, and is refused with STATE (log 20). -/
def orderLeg (t : TrainId) (o : Origin) (wait : Option Nat) (s : State) : Answer :=
  let w := clearStalled t s.work
  match ((w.trains[t]).ride) with
  | none => refuse .state s
  | some d =>
    match formClaim s.env t d.cursor d.frames o wait w with
    | .claim w' => (s.put (closeEval s.env (w'.modifyTrain t fun r => { r with state := .claiming })), .accepted)
    | .ended => doneWith (s.put (closeEval s.env (routeEnd s.env t w)))
    | .no => refuse .state s

/-- DISPATCH past the owner check (R116, steps 4 to 7). -/
def tryDispatch (p : PortId) (mark : Bool) (z : ZoneId) (s : State) : Answer :=
  if mark then refuse .state s
  else if s.track.mode ≠ .operating then refuse .mode s
  else
    match standingFor s.env s.track z .dispatch with
    | none => refuse .state s
    | some t =>
      if readyActive s.env z then orderLeg t (.dispatch p) ((s.env.zone z).bind dispatchWaitMs) s
      else refuse .notReady s

/-- DISPATCH (R116). -/
def performDispatch (p : PortId) (mark : Bool) (n : Nat) (s : State) : Answer :=
  if s.role p ≠ .station then refuse .role s
  else
    match stationZoneArg s.layout n with
    | none => refuse .argument s
    | some z => if s.layout.ownerOf z = some p then tryDispatch p mark z s else refuse .role s

/-- A dispatch in the phase WAITING is cancelled (R120). -/
def cancelDispatch (t : TrainId) (z : ZoneId) (e : Env) (w : Work) : Work := closeEval e (abortClaimed t z .cancel w)

/-- CANCEL_DISPATCH past the owner check (R120). -/
def tryCancel (z : ZoneId) (s : State) : Answer :=
  match dispatchPhase s.track z with
  | some (.waiting, t) => doneWith (s.run (cancelDispatch t z))
  | some (.setting, _) => refuse .state s
  | some (.cleared, _) => refuse .state s
  | none => refuse .state s

/-- CANCEL_DISPATCH (R120). -/
def performCancelDispatch (p : PortId) (n : Nat) (s : State) : Answer :=
  if s.role p ≠ .station then refuse .role s
  else
    match stationZoneArg s.layout n with
    | none => refuse .argument s
    | some z => if s.layout.ownerOf z = some p then tryCancel z s else refuse .role s

/-- MOVE past the owner check (R123, steps 4 to 6). -/
def tryMove (p : PortId) (mark : Bool) (z : ZoneId) (s : State) : Answer :=
  if mark then refuse .state s
  else if s.track.mode ≠ .operating then refuse .mode s
  else
    match standingFor s.env s.track z .park with
    | none => refuse .state s
    | some t => orderLeg t (.move p) none s

/-- MOVE (R123). -/
def performMove (p : PortId) (mark : Bool) (n : Nat) (s : State) : Answer :=
  if s.role p ≠ .transfer then refuse .role s
  else
    match stopZoneArg s.layout n with
    | none => refuse .argument s
    | some z => if s.layout.ownerOf z = some p then tryMove p mark z s else refuse .role s

end Sys2Proof.Machine
end

