-- ==== Sys2Proof/Machine/Perform.lean ====
section
/-! DEFINITION. The execution of a command at the head of a port's command queue (R171). -/

namespace Sys2Proof.Machine

/-- A command is executed by its own rule (Table 11-2); `mark` is its pre-lapse mark (R176). -/
def perform (p : PortId) (mark : Bool) (c : Command) (s : State) : Answer :=
  match c with
  | .ping => performPing p s
  | .readStatus => performReadStatus p s
  | .readZone z => performReadZone z s
  | .readTrain t k => performReadTrain t k s
  | .readSwitch n => performReadSwitch n s
  | .readClaim i k => performReadClaim i k s
  | .readStep r k => performReadStep r k s
  | .setMask m => performSetMask p m s
  | .loadZone z f => performLoadZone p z f s
  | .loadSwitch n f => performLoadSwitch p n f s
  | .loadPort q r => performLoadPort p q r s
  | .loadGlobals b c l => performLoadGlobals p b c l s
  | .commit => performCommit p s
  | .uncommit => performUncommit p s
  | .loadStep r k f => performLoadStep p r k f s
  | .sealRoute r n w => performSealRoute p r n w s
  | .clearRoute r => performClearRoute p r s
  | .setMode m => performSetMode p m s
  | .restart => performRestart p s
  | .setLease q n u => performSetLease p q n u s
  | .forceLapse q => performForceLapse p q s
  | .placeTrain t z g o => performPlaceTrain p t z g o s
  | .assignRoute t r k => performAssignRoute p t r k s
  | .retireTrain t d => performRetireTrain p t d s
  | .assertZone z d => performAssertZone p z d s
  | .proceed t => performProceed p t s
  | .breakLoop t => performBreakLoop p t s
  | .resetSwitch n => performResetSwitch p n s
  | .dispatch z => performDispatch p mark z s
  | .cancelDispatch z => performCancelDispatch p z s
  | .move z => performMove p mark z s
  | .requestSection zs w => performRequestSection p mark zs w s
  | .cancelSection => performCancelSection p s
  | .returnSection ds => performReturnSection p ds s
  | .setHold z r => performSetHold p z r s
  | .moveSwitch n q => performMoveSwitch p n q s

/-- A command of the queue is executed: refused with ARGUMENT where R171 and R180 refuse it, else by its rule. -/
def answer (p : PortId) (c : Queued) (s : State) : Answer :=
  match c.command with
  | none => refuse .argument s
  | some x => perform p c.preLapse x s

/-- A reply joins the reply queue (R171). -/
def Port.queueReply (x : Reply) (r : Port) : Port := { r with replies := r.replies ++ [x] }

/-- The oldest command leaves the queue and is executed, and its reply joins the reply queue in the same event (R171). -/
def executeHead (p : PortId) (c : Queued) (rest : List Queued) (s : State) : State :=
  let a := answer p c (s.modifyPort p fun r => { r with commands := rest })
  a.1.modifyPort p (Port.queueReply { code := c.code, body := a.2 })

/-- The oldest command of a port is executed when the reply queue has room for its reply (R171). -/
def runHead (p : PortId) (s : State) : State :=
  match (s.ports[p]).commands with
  | [] => s
  | c :: rest => if (s.ports[p]).replies.length < Config.replyQueueSize then executeHead p c rest s else s

/-- A command joins the end of the command queue with its pre-lapse mark clear (R168). -/
def Port.queueCommand (c : Queued) (r : Port) : Port := { r with commands := r.commands ++ [c] }

/-- A command as a command row gives it. -/
def directCommand (c : Command) : Queued :=
  { code := BitVec.ofNat 8 (commandCode c), command := some c, preLapse := false }

/-- A command row: the command joins its port's queue, without the effects of a frame, and is executed when it comes to the
head and the reply queue has room. With 4 commands queued it is discarded (R168, R171, log 7). -/
def submit (p : PortId) (c : Command) (s : State) : State :=
  if (s.ports[p]).commands.length < Config.commandQueueSize then
    runHead p (s.modifyPort p (Port.queueCommand (directCommand c)))
  else s

end Sys2Proof.Machine
end

