-- ==== Sys2Proof/Machine/Frames.lean ====
section
/-! DEFINITION. The frames of a port: command frames, READ and REPEAT frames (R168 to R170, R175, R176). -/

namespace Sys2Proof.Machine

/-! ### The status byte and the data output (R168 to R170) -/

/-- The kind byte COMMAND (Table 13-1). -/
def commandKind : Byte := 0xA5

/-- The kind byte READ (Table 13-2). -/
def readKind : Byte := 0x3C

/-- The kind byte REPEAT (Table 13-2). -/
def repeatKind : Byte := 0x3D

/-- What a port shifts out while `n` bytes are clocked: the status byte, the bytes of a record, and then zeros. -/
def shiftedOut (n : Nat) (status : Byte) (record : List Byte) : List Byte :=
  (status :: record ++ List.replicate n 0).take n

/-- The chip select is asserted: a status byte that shows LAST_REJECTED clears rejected (R170). What the frame will shift
out is known by then (log 1, log 17). -/
def Port.openFrame (out : List Byte) (r : Port) : Port := { r with rejected := false, dataOut := out }

/-- The status byte of a frame on a port (R170). -/
def State.statusOf (s : State) (p : PortId) : Byte := statusByte s.track p (s.ports[p])

/-- A rejected frame: discarded, rejected set (R168, R169). -/
def rejectFrame (p : PortId) (s : State) : State := s.modifyPort p fun r => { r with rejected := true }

/-! ### Command frames (R168) -/

/-- The bytes of a taken command frame: its code and its parameters. -/
structure TakenFrame where
  code : Byte
  params : List Byte
deriving DecidableEq, Repr

/-- The check of a command frame at its release: kind byte, length, byte count and CRC-8 (R168, Table 13-1). -/
def checkFrame (bytes : List Byte) : Option TakenFrame :=
  match bytes with
  | kind :: len :: code :: rest =>
    if kind = commandKind ∧ len.toNat ≤ Config.recordLength ∧ rest.length = len.toNat + 1 ∧
        rest.getLast? = some (crc8 (kind :: len :: code :: rest.dropLast)) then
      some { code := code, params := rest.dropLast }
    else none
  | _ => none

/-- The command of a taken frame, as the checks of R171 and R180 leave it. -/
def frameCommand (f : TakenFrame) : Queued :=
  { code := f.code, command := decodeCommand f.code.toNat (f.params.map (·.toNat)), preLapse := false }

/-- A frame is taken: its command joins the queue, the lease restarts, a LAPSED port returns to ACTIVE (R168, R175,
R176). -/
def Port.takeFrame (c : Queued) (r : Port) : Port :=
  { r.queueCommand c with lapsed := false, leaseRemaining := r.leaseFull }

/-- LEASE_RESUMED is posted when a LAPSED port returns to ACTIVE (R176). -/
def resumeNotice (p : PortId) (was : Bool) (s : State) : State :=
  if was then s.run fun _ w => w.post [0] .leaseResumed (.port p) else s

/-- A command frame is taken, and the oldest command is executed if there is room for its reply (R168, R171). -/
def takeFrame (p : PortId) (f : TakenFrame) (s : State) : State :=
  runHead p (resumeNotice p (s.ports[p]).lapsed (s.modifyPort p (Port.takeFrame (frameCommand f))))

/-- A frame whose kind byte is neither READ nor REPEAT, at its release (R168). -/
def releaseCommand (p : PortId) (bytes : List Byte) (full : Bool) (s : State) : State :=
  if full then s
  else
    match checkFrame bytes with
    | some f => takeFrame p f s
    | none => rejectFrame p s

/-! ### Read frames (R169) -/

/-- The record a READ frame returns: the oldest reply, else the oldest notice, else EMPTY (R169). -/
def chosenRecord (r : Port) : Record :=
  match r.replies, r.notices with
  | x :: _, _ => .reply x
  | [], n :: _ => .notice n
  | [], [] => .empty

/-- The chosen record leaves its queue and becomes the last returned record (R169). -/
def Port.giveRecord (r : Port) : Port :=
  match chosenRecord r with
  | .reply x => { r with replies := r.replies.tail, lastReturned := some (.reply x) }
  | .notice n => { r with notices := r.notices.tail, lastReturned := some (.notice n) }
  | .empty => { r with lastReturned := some .empty }

/-- The record a REPEAT frame returns (R169). -/
def repeatedRecord (r : Port) : Record := r.lastReturned.getD .empty

/-- The chip select of a frame that returns a record is asserted. -/
def openRecord (p : PortId) (clocked : Nat) (x : Record) (s : State) : State :=
  s.modifyPort p (Port.openFrame (shiftedOut clocked (s.statusOf p) (recordBytes x)))

/-- A READ frame with this many bytes clocked (R169). A completed one frees a place and lets the head command be
executed (R171). -/
def serveRead (p : PortId) (clocked : Nat) (s : State) : State :=
  let s1 := openRecord p clocked (chosenRecord (s.ports[p])) s
  if Config.readFrameLength ≤ clocked then runHead p (s1.modifyPort p Port.giveRecord) else rejectFrame p s1

/-- A REPEAT frame with this many bytes clocked (R169). -/
def serveRepeat (p : PortId) (clocked : Nat) (s : State) : State :=
  let s1 := openRecord p clocked (repeatedRecord (s.ports[p])) s
  if Config.readFrameLength ≤ clocked then s1 else rejectFrame p s1

/-! ### The frame rows -/

/-- A frame of a kind other than READ and REPEAT: the status byte and then zeros are shifted out, and whether the queue
holds 4 commands is settled at the assertion (R168). -/
def serveCommand (p : PortId) (bytes : List Byte) (s : State) : State :=
  releaseCommand p bytes (decide (Config.commandQueueSize ≤ (s.ports[p]).commands.length))
    (s.modifyPort p (Port.openFrame (shiftedOut bytes.length (s.statusOf p) [])))

/-- The bytes clocked in while the chip select was held, by their kind byte (R168, R169). -/
def serveFrame (p : PortId) (bytes : List Byte) (s : State) : State :=
  match bytes.head? with
  | some k =>
    if k = readKind then serveRead p bytes.length s
    else if k = repeatKind then serveRepeat p bytes.length s
    else serveCommand p bytes s
  | none => serveCommand p bytes s

end Sys2Proof.Machine
end

