-- ==== Sys2Proof/Machine/Commands.lean ====
section
/-! DEFINITION. The meanings of the rows that starts, frames and commands are: each command row hands its command to its
port (R164, R165, R168, R169, R171). -/

namespace Sys2Proof.Machine

/-! ### Starts -/

/-- COLD_START (R164). -/
def execColdStart (s : State) : Host.Outcome State Fault Refusal := .next (coldStart s)

/-- WARM_START (R165). -/
def execWarmStart (s : State) : Host.Outcome State Fault Refusal := .next (warmStart s)

/-! ### Frames -/

/-- COMMAND_FRAME (R168). -/
def execCommandFrame (p : PortId) (bytes : List Byte) (s : State) : Host.Outcome State Fault Refusal :=
  .next (serveFrame p bytes s)

/-- READ_FRAME (R169). -/
def execReadFrame (p : PortId) (clocked : Nat) (s : State) : Host.Outcome State Fault Refusal :=
  .next (serveRead p clocked s)

/-- REPEAT_FRAME (R169). -/
def execRepeatFrame (p : PortId) (clocked : Nat) (s : State) : Host.Outcome State Fault Refusal :=
  .next (serveRepeat p clocked s)

/-! ### Commands -/

/-- PING (R174). -/
def execPing (p : PortId) (s : State) : Host.Outcome State Fault Refusal :=
  .next (submit p .ping s)

/-- READ_STATUS (R174). -/
def execReadStatus (p : PortId) (s : State) : Host.Outcome State Fault Refusal :=
  .next (submit p .readStatus s)

/-- READ_ZONE (R34). -/
def execReadZone (p : PortId) (zone : Nat) (s : State) : Host.Outcome State Fault Refusal :=
  .next (submit p (.readZone zone) s)

/-- READ_TRAIN (R73). -/
def execReadTrain (p : PortId) (train skip : Nat) (s : State) : Host.Outcome State Fault Refusal :=
  .next (submit p (.readTrain train skip) s)

/-- READ_SWITCH (R135). -/
def execReadSwitch (p : PortId) (switch : Nat) (s : State) : Host.Outcome State Fault Refusal :=
  .next (submit p (.readSwitch switch) s)

/-- READ_CLAIM (R111). -/
def execReadClaim (p : PortId) (position skip : Nat) (s : State) : Host.Outcome State Fault Refusal :=
  .next (submit p (.readClaim position skip) s)

/-- READ_STEP (R83). -/
def execReadStep (p : PortId) (route step : Nat) (s : State) : Host.Outcome State Fault Refusal :=
  .next (submit p (.readStep route step) s)

/-- SET_MASK (R173). -/
def execSetMask (p : PortId) (mask : Nat) (s : State) : Host.Outcome State Fault Refusal :=
  .next (submit p (.setMask mask) s)

/-- LOAD_ZONE (R2). -/
def execLoadZone (p : PortId) (zone : Nat) (fields : Option ZoneFields) (s : State) : Host.Outcome State Fault Refusal :=
  .next (submit p (.loadZone zone fields) s)

/-- LOAD_SWITCH (R5). -/
def execLoadSwitch (p : PortId) (switch : Nat) (fields : Option SwitchFields) (s : State) : Host.Outcome State Fault Refusal :=
  .next (submit p (.loadSwitch switch fields) s)

/-- LOAD_PORT (R7). -/
def execLoadPort (p : PortId) (port role : Nat) (s : State) : Host.Outcome State Fault Refusal :=
  .next (submit p (.loadPort port role) s)

/-- LOAD_GLOBALS (R8). -/
def execLoadGlobals (p : PortId) (bypass confirm lookBack : Nat) (s : State) : Host.Outcome State Fault Refusal :=
  .next (submit p (.loadGlobals bypass confirm lookBack) s)

/-- COMMIT (R9). -/
def execCommit (p : PortId) (s : State) : Host.Outcome State Fault Refusal :=
  .next (submit p .commit s)

/-- UNCOMMIT (R15). -/
def execUncommit (p : PortId) (s : State) : Host.Outcome State Fault Refusal :=
  .next (submit p .uncommit s)

/-- LOAD_STEP (R78). -/
def execLoadStep (p : PortId) (route step : Nat) (fields : StepFields) (s : State) : Host.Outcome State Fault Refusal :=
  .next (submit p (.loadStep route step fields) s)

/-- SEAL_ROUTE (R80). -/
def execSealRoute (p : PortId) (route count : Nat) (wide : Bool) (s : State) : Host.Outcome State Fault Refusal :=
  .next (submit p (.sealRoute route count wide) s)

/-- CLEAR_ROUTE (R79). -/
def execClearRoute (p : PortId) (route : Nat) (s : State) : Host.Outcome State Fault Refusal :=
  .next (submit p (.clearRoute route) s)

/-- SET_MODE (R159). -/
def execSetMode (p : PortId) (target : Nat) (s : State) : Host.Outcome State Fault Refusal :=
  .next (submit p (.setMode target) s)

/-- RESTART (R166). -/
def execRestart (p : PortId) (s : State) : Host.Outcome State Fault Refusal :=
  .next (submit p .restart s)

/-- SET_LEASE (R175). -/
def execSetLease (p : PortId) (port count unit : Nat) (s : State) : Host.Outcome State Fault Refusal :=
  .next (submit p (.setLease port count unit) s)

/-- FORCE_LAPSE (R176). -/
def execForceLapse (p : PortId) (port : Nat) (s : State) : Host.Outcome State Fault Refusal :=
  .next (submit p (.forceLapse port) s)

/-- PLACE_TRAIN (R69). -/
def execPlaceTrain (p : PortId) (train zone tag : Nat) (option : RouteOption) (s : State) : Host.Outcome State Fault Refusal :=
  .next (submit p (.placeTrain train zone tag option) s)

/-- ASSIGN_ROUTE (R70). -/
def execAssignRoute (p : PortId) (train route step : Nat) (s : State) : Host.Outcome State Fault Refusal :=
  .next (submit p (.assignRoute train route step) s)

/-- RETIRE_TRAIN (R71). -/
def execRetireTrain (p : PortId) (train disposition : Nat) (s : State) : Host.Outcome State Fault Refusal :=
  .next (submit p (.retireTrain train disposition) s)

/-- ASSERT_ZONE (R25). -/
def execAssertZone (p : PortId) (zone declaration : Nat) (s : State) : Host.Outcome State Fault Refusal :=
  .next (submit p (.assertZone zone declaration) s)

/-- PROCEED (R72). -/
def execProceed (p : PortId) (train : Nat) (s : State) : Host.Outcome State Fault Refusal :=
  .next (submit p (.proceed train) s)

/-- BREAK_LOOP (R91). -/
def execBreakLoop (p : PortId) (train : Nat) (s : State) : Host.Outcome State Fault Refusal :=
  .next (submit p (.breakLoop train) s)

/-- RESET_SWITCH (R132). -/
def execResetSwitch (p : PortId) (switch : Nat) (s : State) : Host.Outcome State Fault Refusal :=
  .next (submit p (.resetSwitch switch) s)

/-- DISPATCH (R116). -/
def execDispatch (p : PortId) (zone : Nat) (s : State) : Host.Outcome State Fault Refusal :=
  .next (submit p (.dispatch zone) s)

/-- CANCEL_DISPATCH (R120). -/
def execCancelDispatch (p : PortId) (zone : Nat) (s : State) : Host.Outcome State Fault Refusal :=
  .next (submit p (.cancelDispatch zone) s)

/-- MOVE (R123). -/
def execMove (p : PortId) (zone : Nat) (s : State) : Host.Outcome State Fault Refusal :=
  .next (submit p (.move zone) s)

/-- REQUEST_SECTION (R138). -/
def execRequestSection (p : PortId) (zones : List Nat) (wait : Option Nat) (s : State) : Host.Outcome State Fault Refusal :=
  .next (submit p (.requestSection zones wait) s)

/-- CANCEL_SECTION (R139). -/
def execCancelSection (p : PortId) (s : State) : Host.Outcome State Fault Refusal :=
  .next (submit p .cancelSection s)

/-- RETURN_SECTION (R143). -/
def execReturnSection (p : PortId) (declarations : List (Nat × Declared)) (s : State) : Host.Outcome State Fault Refusal :=
  .next (submit p (.returnSection declarations) s)

/-- SET_HOLD (R142). -/
def execSetHold (p : PortId) (zone request : Nat) (s : State) : Host.Outcome State Fault Refusal :=
  .next (submit p (.setHold zone request) s)

/-- MOVE_SWITCH (R133). -/
def execMoveSwitch (p : PortId) (switch position : Nat) (s : State) : Host.Outcome State Fault Refusal :=
  .next (submit p (.moveSwitch switch position) s)

end Sys2Proof.Machine
end

