-- ==== Sys2Proof/Machine/Events.lean ====
section
/-! DEFINITION. The field events and timer events as they reach the machine, one meaning per row (R21, R26, R30 to R32, R40,
R42 to R45, R63, R66 to R68, R108, R114, R118, R129 to R131, R156, R158, R175). -/

namespace Sys2Proof.Machine

/-! ### Changes of inputs (R37 to R40) -/

/-- A line that has shown one level for long enough: established at that level, no count in progress (log 5). -/
def Line.steady (b : Bool) : Line := { pin := b, established := true, level := b, last := b, count := 0, due := false }

/-- The wire level at which an input reads active or inactive (R37; of the stop sensor of a RUN zone the model's choice,
log 33). -/
def wireLevel (l : Layout) (i : InputId) (active : Bool) : Bool := if active then activeHigh l i else !activeHigh l i

/-- An input's debounced level, and its wire, take a level that its owner is told (R38, log 5). -/
def State.setInput (s : State) (i : InputId) (active : Bool) : State :=
  { s with inputs := setInputLine s.inputs i (Line.steady (wireLevel s.layout i active)) }

/-- A debounced change is delivered to the input's owner; a level the owner has already been told is no change (R38 to
R40). -/
def changeInput (i : InputId) (active : Bool) (f : Env → Work → Work) (s : State) : State :=
  if inputSeen s.layout s.inputs i = active then s.setInput i active else (s.setInput i active).run f

/-! ### Field events -/

/-- ENTRY_SENSOR_CHANGE (R42). -/
def execEntrySensorChange (z : ZoneId) (active : Bool) (s : State) : Host.Outcome State Fault Refusal :=
  .next (changeInput (.entry z) active (fun e w => entryChange e z active w) s)

/-- STOP_SENSOR_CHANGE (R63, R66). -/
def execStopSensorChange (z : ZoneId) (active : Bool) (s : State) : Host.Outcome State Fault Refusal :=
  .next (changeInput (.stop z) active (fun e w => stopChange e z active w) s)

/-- HOLD_FEEDBACK_CHANGE (R32). -/
def execHoldFeedbackChange (z : ZoneId) (active : Bool) (s : State) : Host.Outcome State Fault Refusal :=
  .next (changeInput (.feedback z) active (fun e w => feedbackChange e z w) s)

/-- READY_CHANGE (R118). -/
def execReadyChange (r : ReadyId) (active : Bool) (s : State) : Host.Outcome State Fault Refusal :=
  .next (changeInput (.ready r) active (fun e w => readyChange e r active w) s)

/-- A change of an ESTOP line, with the lines' recorded levels as they stand after it (R149, R156, R158). -/
def estopChange (active : Bool) (e : Env) (w : Work) : Work :=
  if active then
    if w.mode = .estopped then { w with estopClear := none }
    else closeEvent e (enterEstopped e (e.estop 0) (e.estop 1) w)
  else if w.mode = .estopped ∧ e.estop 0 = false ∧ e.estop 1 = false then { w with estopClear := some Config.estopClearTime }
  else w

/-- ESTOP_LINE_CHANGE (R156). -/
def execEstopLineChange (line : EstopId) (active : Bool) (s : State) : Host.Outcome State Fault Refusal :=
  .next (changeInput (.estop line) active (estopChange active) s)

/-- SWITCH_POSITION_CHANGE (R131). -/
def execSwitchPositionChange (n : SwitchId) (input : Position) (active : Bool) (s : State) :
    Host.Outcome State Fault Refusal :=
  .next (changeInput (.position n input) active (fun e w => positionChange e n w) s)

/-- The position inputs of a switch show one position. -/
def State.showPosition (s : State) (n : SwitchId) (q : Position) : State :=
  (s.setInput (.position n .straight) (decide (q = .straight))).setInput (.position n .diverge) (decide (q = .diverge))

/-- A move arrives with both inputs showing its target; nothing for a switch that is not MOVING (R129). -/
def moveArrives (n : SwitchId) (s : State) : State :=
  match s.track.switchState n with
  | some (.moving q _ _) => (s.showPosition n q).run fun e w => closeEvent e (arrive n w)
  | _ => s

/-- MOVE_ARRIVAL (R129). -/
def execMoveArrival (n : SwitchId) (s : State) : Host.Outcome State Fault Refusal := .next (moveArrives n s)

/-! ### Timer events: each takes effect when its timer runs (log 4) -/

/-- PASSAGE_GAP_EXPIRY (R43, R45). -/
def execPassageGapExpiry (z : ZoneId) (s : State) : Host.Outcome State Fault Refusal :=
  .next (s.run fun e w => gapEnds e z w)

/-- PASSAGE_LIMIT_EXPIRY (R44). -/
def execPassageLimitExpiry (z : ZoneId) (s : State) : Host.Outcome State Fault Refusal :=
  .next (s.run fun e w => limitEnds e z w)

/-- HOLD_CONFIRM_EXPIRY (R31). -/
def execHoldConfirmExpiry (z : ZoneId) (s : State) : Host.Outcome State Fault Refusal :=
  .next (s.run fun e w => confirmEnds e z w)

/-- The stop is lifted when the clear time ends (R158). -/
def clearEnds (e : Env) (w : Work) : Work :=
  match w.mode, w.estopClear with
  | .estopped, some _ =>
    closeEvent e
      (postMode w.mode .estopClear
        { w with mode := if e.layout.committed then .halted else .unconfigured, estopClear := none })
  | _, _ => w

/-- ESTOP_CLEAR_EXPIRY (R158). -/
def execEstopClearExpiry (s : State) : Host.Outcome State Fault Refusal := .next (s.run clearEnds)

/-- MOVE_LIMIT_EXPIRY (R130). -/
def execMoveLimitExpiry (n : SwitchId) (s : State) : Host.Outcome State Fault Refusal :=
  .next (s.run fun e w => attemptEnds e n w)

/-- SETTLE_EXPIRY (R21). -/
def execSettleExpiry (z : ZoneId) (s : State) : Host.Outcome State Fault Refusal :=
  .next (s.run fun e w => settleEnds e z w)

/-- DWELL_EXPIRY (R114). -/
def execDwellExpiry (t : TrainId) (s : State) : Host.Outcome State Fault Refusal :=
  .next (s.run fun e w => dwellEnds e t w)

/-- DEPARTURE_WINDOW_EXPIRY (R67). -/
def execDepartureWindowExpiry (t : TrainId) (s : State) : Host.Outcome State Fault Refusal :=
  .next (s.run fun e w => windowEnds e t w)

/-- TRAVEL_LIMIT_EXPIRY (R68). -/
def execTravelLimitExpiry (t : TrainId) (s : State) : Host.Outcome State Fault Refusal :=
  .next (s.run fun e w => travelEnds e t w)

/-- CLAIM_WAIT_EXPIRY (R108). -/
def execClaimWaitExpiry (k : Claimant) (s : State) : Host.Outcome State Fault Refusal :=
  .next (s.run fun e w => waitEnds e k w)

/-- The lease of a port ends, if it runs (R175). -/
def leaseEnds (p : PortId) (s : State) : State :=
  match (s.ports[p]).leaseRemaining with
  | some _ => lapse p .expiry s
  | none => s

/-- LEASE_EXPIRY (R175, R176). -/
def execLeaseExpiry (p : PortId) (s : State) : Host.Outcome State Fault Refusal := .next (leaseEnds p s)

/-- OCCUPANCY_SAMPLE (R26): a row from outside takes a sample at any time, and stands for the one that is due (log 4). -/
def execOccupancySample (s : State) : Host.Outcome State Fault Refusal :=
  .next ({ s with sampleDue := false }.run sampleZones)

end Sys2Proof.Machine
end

