-- ==== Sys2Proof/Machine/Dispatch.lean ====
section
/-! DEFINITION. The meaning of each row of opcode_table.json: one arm per constructor of `Instr`. -/

namespace Sys2Proof.Machine

/-- A row's effect on everything but the queue of waiting commands. -/
def exec (i : Instr) (s : State) : Host.Outcome State Fault Refusal :=
  match i with
  | .coldStart => Sys2Proof.Machine.execColdStart s
  | .warmStart => Sys2Proof.Machine.execWarmStart s
  | .commandFrame p bytes => Sys2Proof.Machine.execCommandFrame p bytes s
  | .readFrame p clocked => Sys2Proof.Machine.execReadFrame p clocked s
  | .repeatFrame p clocked => Sys2Proof.Machine.execRepeatFrame p clocked s
  | .ping p => Sys2Proof.Machine.execPing p s
  | .readStatus p => Sys2Proof.Machine.execReadStatus p s
  | .readZone p zone => Sys2Proof.Machine.execReadZone p zone s
  | .readTrain p train skip => Sys2Proof.Machine.execReadTrain p train skip s
  | .readSwitch p switch => Sys2Proof.Machine.execReadSwitch p switch s
  | .readClaim p position skip => Sys2Proof.Machine.execReadClaim p position skip s
  | .readStep p route step => Sys2Proof.Machine.execReadStep p route step s
  | .setMask p mask => Sys2Proof.Machine.execSetMask p mask s
  | .loadZone p zone fields => Sys2Proof.Machine.execLoadZone p zone fields s
  | .loadSwitch p switch fields => Sys2Proof.Machine.execLoadSwitch p switch fields s
  | .loadPort p port role => Sys2Proof.Machine.execLoadPort p port role s
  | .loadGlobals p bypass confirm lookBack => Sys2Proof.Machine.execLoadGlobals p bypass confirm lookBack s
  | .commit p => Sys2Proof.Machine.execCommit p s
  | .uncommit p => Sys2Proof.Machine.execUncommit p s
  | .loadStep p route step fields => Sys2Proof.Machine.execLoadStep p route step fields s
  | .sealRoute p route count wide => Sys2Proof.Machine.execSealRoute p route count wide s
  | .clearRoute p route => Sys2Proof.Machine.execClearRoute p route s
  | .setMode p target => Sys2Proof.Machine.execSetMode p target s
  | .restart p => Sys2Proof.Machine.execRestart p s
  | .setLease p port count unit => Sys2Proof.Machine.execSetLease p port count unit s
  | .forceLapse p port => Sys2Proof.Machine.execForceLapse p port s
  | .placeTrain p train zone tag option => Sys2Proof.Machine.execPlaceTrain p train zone tag option s
  | .assignRoute p train route step => Sys2Proof.Machine.execAssignRoute p train route step s
  | .retireTrain p train disposition => Sys2Proof.Machine.execRetireTrain p train disposition s
  | .assertZone p zone declaration => Sys2Proof.Machine.execAssertZone p zone declaration s
  | .proceed p train => Sys2Proof.Machine.execProceed p train s
  | .breakLoop p train => Sys2Proof.Machine.execBreakLoop p train s
  | .resetSwitch p switch => Sys2Proof.Machine.execResetSwitch p switch s
  | .dispatch p zone => Sys2Proof.Machine.execDispatch p zone s
  | .cancelDispatch p zone => Sys2Proof.Machine.execCancelDispatch p zone s
  | .move p zone => Sys2Proof.Machine.execMove p zone s
  | .requestSection p zones wait => Sys2Proof.Machine.execRequestSection p zones wait s
  | .cancelSection p => Sys2Proof.Machine.execCancelSection p s
  | .returnSection p declarations => Sys2Proof.Machine.execReturnSection p declarations s
  | .setHold p zone request => Sys2Proof.Machine.execSetHold p zone request s
  | .moveSwitch p switch position => Sys2Proof.Machine.execMoveSwitch p switch position s
  | .entrySensorChange z active => Sys2Proof.Machine.execEntrySensorChange z active s
  | .passageGapExpiry z => Sys2Proof.Machine.execPassageGapExpiry z s
  | .passageLimitExpiry z => Sys2Proof.Machine.execPassageLimitExpiry z s
  | .stopSensorChange z active => Sys2Proof.Machine.execStopSensorChange z active s
  | .holdFeedbackChange z active => Sys2Proof.Machine.execHoldFeedbackChange z active s
  | .holdConfirmExpiry z => Sys2Proof.Machine.execHoldConfirmExpiry z s
  | .readyChange r active => Sys2Proof.Machine.execReadyChange r active s
  | .estopLineChange line active => Sys2Proof.Machine.execEstopLineChange line active s
  | .estopClearExpiry => Sys2Proof.Machine.execEstopClearExpiry s
  | .switchPositionChange n input active => Sys2Proof.Machine.execSwitchPositionChange n input active s
  | .moveArrival n => Sys2Proof.Machine.execMoveArrival n s
  | .moveLimitExpiry n => Sys2Proof.Machine.execMoveLimitExpiry n s
  | .settleExpiry z => Sys2Proof.Machine.execSettleExpiry z s
  | .dwellExpiry t => Sys2Proof.Machine.execDwellExpiry t s
  | .departureWindowExpiry t => Sys2Proof.Machine.execDepartureWindowExpiry t s
  | .travelLimitExpiry t => Sys2Proof.Machine.execTravelLimitExpiry t s
  | .claimWaitExpiry k => Sys2Proof.Machine.execClaimWaitExpiry k s
  | .leaseExpiry p => Sys2Proof.Machine.execLeaseExpiry p s
  | .occupancySample => Sys2Proof.Machine.execOccupancySample s

end Sys2Proof.Machine
end

