-- ==== Sys2Proof/Machine/Tick.lean ====
section
/-! DEFINITION. The 1 ms timebase (00_scope.md section 5, R37 to R39): the sampler, the timers, and the events that have
fallen due (log 2, log 3, log 16). -/

namespace Sys2Proof.Machine

/-! ### The sampler (R38 to R40) -/

/-- Whether an input has an owner its changes are delivered to (R40, Table 3-2). -/
def hasOwner (l : Layout) (i : InputId) : Bool :=
  match i with
  | .entry z => l.committed && l.defines z
  | .stop z => l.committed && l.isStop z
  | .feedback z => l.committed && l.isStop z
  | .position n _ => l.committed && (l.switches[n]).isSome
  | .ready r => l.committed && (readyZone l r).isSome
  | .estop _ => true

/-- One sample of an established line: the third consecutive differing sample changes the level, and the change is to be
delivered where somebody owns the input (R38). -/
def sampleEstablished (owned : Bool) (x : Line) : Line :=
  if x.pin = x.level then { x with count := 0 }
  else if x.count < 2 then { x with count := x.count + 1 }
  else { x with level := x.pin, count := 0, due := owned }

/-- One sample of a line not yet established: a run of three equal samples establishes it, and the change is to be delivered
where somebody owns the input and the level is not the safe one (R39). -/
def sampleUnestablished (owned safe : Bool) (x : Line) : Line :=
  if x.count = 0 ∨ x.pin ≠ x.last then { x with last := x.pin, count := 1 }
  else if x.count < 2 then { x with count := x.count + 1 }
  else { x with established := true, level := x.pin, count := 0, due := owned && decide (x.pin ≠ safe) }

/-- One sample of the line of an input (R38, R39). -/
def sampleLine (l : Layout) (i : InputId) (x : Line) : Line :=
  if x.established then sampleEstablished (hasOwner l i) x
  else sampleUnestablished (hasOwner l i) (wireLevel l i (safeActive i)) x

/-- One sample of every line (R37). -/
def sampleInputs (l : Layout) (x : Inputs) : Inputs :=
  { entry := Vector.ofFn fun z => sampleLine l (.entry z) (x.entry[z])
    stop := Vector.ofFn fun z => sampleLine l (.stop z) (x.stop[z])
    feedback := Vector.ofFn fun z => sampleLine l (.feedback z) (x.feedback[z])
    straight := Vector.ofFn fun n => sampleLine l (.position n .straight) (x.straight[n])
    diverge := Vector.ofFn fun n => sampleLine l (.position n .diverge) (x.diverge[n])
    ready := Vector.ofFn fun r => sampleLine l (.ready r) (x.ready[r])
    estop := Vector.ofFn fun e => sampleLine l (.estop e) (x.estop[e]) }

/-! ### The timers -/

/-- A running timer counts one millisecond. -/
def tickTimer (x : Option Nat) : Option Nat := x.map (· - 1)

/-- The settle time of a CLEARING zone (R21). -/
def ZoneState.tick (x : ZoneState) : ZoneState :=
  match x with
  | .clearing t n => .clearing t (n - 1)
  | _ => x

/-- The confirm time of an AWAITING supervision (R30). -/
def Supervision.tick (x : Supervision) : Supervision :=
  match x with
  | .awaiting n => .awaiting (n - 1)
  | _ => x

/-- The timers of a zone. -/
def Zone.tick (r : Zone) : Zone :=
  { r with state := r.state.tick, brake := r.brake.map fun b => { b with supervision := b.supervision.tick } }

/-- The timers of a tracker (R41). -/
def Tracker.tick (x : Tracker) : Tracker :=
  match x with
  | .idle => .idle
  | .passing s n g => .passing s (n - 1) (tickTimer g)
  | .stuck g => .stuck (tickTimer g)

/-- The timers of a train (Table 4-1). -/
def Train.tick (r : Train) : Train :=
  { r with dwell := tickTimer r.dwell, departure := tickTimer r.departure, travel := tickTimer r.travel }

/-- The wait remaining of a claim counts while it is WAITING (R108). -/
def Claim.tick (c : Claim) : Claim := if c.isWaiting then { c with wait := tickTimer c.wait } else c

/-- The limit of a move (R130). -/
def Switch.tick (r : Switch) : Switch :=
  { r with
    state := match r.state with
      | .moving q n x => .moving q (n - 1) x
      | .settled q => .settled q
      | .unknown => .unknown
      | .failed => .failed }

/-- Every timer of the track. -/
def Track.tick (w : Track) : Track :=
  { w with
    estopClear := tickTimer w.estopClear
    zones := w.zones.map (·.map Zone.tick)
    trackers := w.trackers.map (·.map Tracker.tick)
    trains := w.trains.map Train.tick
    claims := w.claims.map Claim.tick
    line := w.line.map Claim.tick
    switches := w.switches.map (·.map Switch.tick) }

/-- The lease of a port (R175). -/
def Port.tick (r : Port) : Port := { r with leaseRemaining := tickTimer r.leaseRemaining }

/-- One millisecond passes: every line is sampled, every timer counts, and at a whole multiple of 250 ms the occupancy sample
of a committed layout falls due (R26, R37, log 16). -/
def State.tick (s : State) : State :=
  { s with
    time := s.time + 1
    inputs := sampleInputs s.layout s.inputs
    track := s.track.tick
    ports := s.ports.map Port.tick
    sampleDue := s.layout.committed && decide ((s.time + 1) % Config.samplePeriod = 0) }

/-! ### The events that have fallen due -/

/-- A timer that has reached 0. -/
def runOut (x : Option Nat) : Bool := decide (x = some 0)

/-- The settle time of a zone has run out. -/
def settleDue (w : Track) (z : ZoneId) : Bool :=
  match w.zoneState z with
  | some (.clearing _ n) => decide (n = 0)
  | _ => false

/-- The confirm time of a zone has run out. -/
def confirmDue (w : Track) (z : ZoneId) : Bool := decide ((w.brake z).map (·.supervision) = some (.awaiting 0))

/-- The gap of a tracker has run out. -/
def gapDue (w : Track) (z : ZoneId) : Bool :=
  match w.trackers[z] with
  | some (.passing _ _ g) => runOut g
  | some (.stuck g) => runOut g
  | some .idle => false
  | none => false

/-- The limit of a passage has run out. -/
def limitDue (w : Track) (z : ZoneId) : Bool :=
  match w.trackers[z] with
  | some (.passing _ n _) => decide (n = 0)
  | some (.stuck _) => false
  | some .idle => false
  | none => false

/-- The limit of a move has run out. -/
def moveDue (w : Track) (n : SwitchId) : Bool :=
  match w.switchState n with
  | some (.moving _ k _) => decide (k = 0)
  | _ => false

/-- The claimants whose WAITING claim has run out of wait. -/
def expiredClaimants (w : Track) : List Claimant :=
  (w.allClaims.filter fun c => c.isWaiting && runOut c.wait).map (·.claimant)

/-- Every field input. -/
def allInputs : List InputId :=
  zoneIds.map .entry ++ zoneIds.map .stop ++ zoneIds.map .feedback ++ switchIds.map (fun n => .position n .straight) ++
  switchIds.map (fun n => .position n .diverge) ++ (List.finRange 4).map .ready ++ (List.finRange 2).map .estop

/-- The row that delivers a change of an input (R40). -/
def inputRow (i : InputId) (active : Bool) : Instr :=
  match i with
  | .entry z => .entrySensorChange z active
  | .stop z => .stopSensorChange z active
  | .feedback z => .holdFeedbackChange z active
  | .position n q => .switchPositionChange n q active
  | .ready r => .readyChange r active
  | .estop k => .estopLineChange k active

/-- The changes of inputs that are due. -/
def dueChanges (s : State) : List Instr :=
  (allInputs.filter fun i => (inputLine s.inputs i).due).map fun i => inputRow i (inputActive s.layout s.inputs i)

/-- The expiries of the zones' timers that are due. -/
def dueZones (w : Track) : List Instr :=
  (zoneIds.filter (settleDue w)).map .settleExpiry ++ (zoneIds.filter (confirmDue w)).map .holdConfirmExpiry ++
  (zoneIds.filter (gapDue w)).map .passageGapExpiry ++ (zoneIds.filter (limitDue w)).map .passageLimitExpiry

/-- The expiries of the trains' timers that are due. -/
def dueTrains (w : Track) : List Instr :=
  (trainIds.filter fun t => runOut (w.trains[t]).dwell).map .dwellExpiry ++
  (trainIds.filter fun t => runOut (w.trains[t]).departure).map .departureWindowExpiry ++
  (trainIds.filter fun t => runOut (w.trains[t]).travel).map .travelLimitExpiry

/-- The other expiries that are due: moves, claims, leases, the ESTOP clear time, and the occupancy sample. -/
def dueOthers (s : State) : List Instr :=
  (switchIds.filter (moveDue s.track)).map .moveLimitExpiry ++ (expiredClaimants s.track).map .claimWaitExpiry ++
  (portIds.filter fun p => runOut (s.ports[p]).leaseRemaining).map .leaseExpiry ++
  (if runOut s.track.estopClear then [Instr.estopClearExpiry] else []) ++
  if s.sampleDue then [Instr.occupancySample] else []

/-- The events that have fallen due and are not yet taken. -/
def dueEvents (s : State) : List Instr := dueChanges s ++ dueZones s.track ++ dueTrains s.track ++ dueOthers s

end Sys2Proof.Machine
end

