-- ==== Sys2Proof/Machine/Step.lean ====
section
/-! DEFINITION. One step of the machine: the command at the front of the queue, else an event that has fallen due, else one
millisecond (log 2, log 3). -/

namespace Sys2Proof.Machine

/-- One of several due events, `i` being the first: a free choice of the order in one millisecond (log 3). -/
def stepChosen (i : Instr) (rest : List Instr) (s : State) : Host.Outcome State Fault Refusal :=
  exec ((rest[Config.dueChoice s.choices % (rest.length + 1)]?).getD i) { s with choices := s.choices + 1 }

/-- The step on an empty queue: a due event, the order of several being free, or one millisecond (log 2, log 3). -/
def stepIdle (s : State) : Host.Outcome State Fault Refusal :=
  match dueEvents s with
  | [] => .next s.tick
  | [i] => exec i s
  | i :: j :: rest => stepChosen i (j :: rest) s

/-- One step. -/
def step (s : State) : Host.Outcome State Fault Refusal :=
  match s.pending with
  | i :: rest => exec i { s with pending := rest }
  | [] => stepIdle s

/-- The command a word of the opcode table spells, at the front of the queue; no row gives bits, so none does. -/
def State.withFetchWord (s : State) (nbits w : Nat) : State :=
  match decodeTableWord nbits w with
  | some i => { s with pending := i :: s.pending }
  | none => s

end Sys2Proof.Machine
end

