-- ==== Sys2Proof/Safety.lean ====
section
/-! DEFINITION. What claims about the machine speak of: a port that can take a command at once, a command's reply and what a
long one carries, the paths that legs follow, what an event leaves alone, and the invariants that every step keeps. -/

namespace Sys2Proof.Machine

/-! ### Commands and replies -/

/-- A port none of whose commands waits and whose reply queue has room: a command row on it is executed in its own step
(R171). -/
def State.idlePort (s : State) (p : PortId) : Prop :=
  (s.ports[p]).commands = [] ∧ (s.ports[p]).replies.length < Config.replyQueueSize

/-- The state with the reply of a command at the end of its port's reply queue (R171). -/
def replied (p : PortId) (code : Byte) (body : ReplyBody) (s : State) : State :=
  s.modifyPort p (Port.queueReply { code := code, body := body })

/-- A command row on an idle port is refused: nothing changes but that the reply is queued (R171). -/
def refusesWith (i : Instr) (p : PortId) (code : Byte) (r : Reason) (s : State) : Prop :=
  exec i s = .next (replied p code (.refused r) s)

/-- Past its ROLE and LOCKED checks a load command may change the layout. -/
def State.loadable (s : State) (p : PortId) : Prop := p = 0 ∧ s.layout.committed = false

/-- Past their ROLE and MODE checks the supervisor's commands on a committed layout may act. -/
def State.orderable (s : State) (p : PortId) : Prop := p = 0 ∧ s.layout.committed = true

/-- The fields of LOAD_ZONE lie in the ranges of Table 1-1 that apply to the kind, and READY index and owner port are present
or absent as R2 has them. -/
def zoneAdmissible (f : ZoneFields) : Prop :=
  f.settle ≤ 15 ∧ (1 ≤ f.gap ∧ f.gap ≤ 63) ∧ (1 ≤ f.limit ∧ f.limit ≤ 255) ∧ f.travel ≤ 255 ∧
  (f.kind ≠ .run → 1 ≤ f.window ∧ f.window ≤ 255) ∧ (f.kind = .station → f.wait ≤ 255) ∧
  (f.kind = .station → ∃ r : ReadyId, f.ready = some r.val) ∧ (f.kind ≠ .station → f.ready = none) ∧
  (f.kind = .run → f.owner = none) ∧ ∀ n, f.owner = some n → 1 ≤ n ∧ n ≤ 3

/-- The record stored for these fields: those that do not apply to the kind are not stored (R2). -/
def zoneStores (f : ZoneFields) (r : ZoneLayout) : Prop :=
  r.kind = f.kind ∧ r.exit = f.exit ∧ r.entryHigh = f.entryHigh ∧ r.settle = f.settle ∧ r.gap = f.gap ∧
  r.limit = f.limit ∧ r.travel = f.travel ∧ r.ready.map (·.val) = f.ready ∧ r.owner.map (·.val) = f.owner ∧
  (f.kind ≠ .run → r.stopHigh = some f.stopHigh ∧ r.window = some f.window) ∧
  (f.kind = .run → r.stopHigh = none ∧ r.window = none) ∧
  (f.kind = .station → r.wait = some f.wait) ∧ (f.kind ≠ .station → r.wait = none)

/-- A train with this record locks the switch (R127, R6): its footprint holds a near-side zone and the far-side zone of one
passage over it, or its authority holds a far-side zone. -/
def Layout.lockedBy (l : Layout) (n : SwitchId) (r : Train) : Prop :=
  ∃ x, l.switches[n] = some x ∧ ∃ a b : ZoneId,
    ((x.kind = .diverge ∧ a = x.root ∧ (b = x.straight ∨ b = x.diverge)) ∨
      (x.kind = .merge ∧ b = x.root ∧ (a = x.straight ∨ a = x.diverge))) ∧
    ((a ∈ r.footprint ∧ b ∈ r.footprint) ∨ ∃ g ∈ r.authority, b ∈ g.zones)

/-- The notice that the train's dispatch or move in progress ends without departure, with the code of the cause; none where
the train has none (R121, R123). -/
def Track.abortPosts (w : Track) (t : TrainId) (cause : Byte) : List Post :=
  match progressOrigin w t with
  | some (.dispatch p) => [{ note := { name := .dispatchAborted, subject := .train t, detail1 := cause, detail2 := 0xFF }
                             named := [0, p] }]
  | some (.move p) => [{ note := { name := .moveAborted, subject := .train t, detail1 := cause, detail2 := 0xFF }
                         named := [0, p] }]
  | some .auto => []
  | none => []

/-- The route is held by a train (R77). -/
def Track.routeInUse (w : Track) (r : RouteId) : Prop := ∃ (t : TrainId) (d : Ride), (w.trains[t]).ride = some d ∧ d.route = r

/-- A zone of the committed layout is stoppable, by its record. -/
def Layout.stoppableZone (l : Layout) (z : ZoneId) : Prop := ∃ r, l.zones[z] = some r ∧ r.kind ≠ .run

/-- A train that leaves zone `a` by its exit enters zone `b`, with this requirement where it passes a switch (R3, R6). -/
def Layout.passage (l : Layout) (a b : ZoneId) (q : Option Requirement) : Prop :=
  ∃ r : ZoneLayout, l.zones[a] = some r ∧
    ((r.exit = .zone b ∧ q = none) ∨ ∃ (n : SwitchId) (w : SwitchLayout), r.exit = .switch n ∧ l.switches[n] = some w ∧
      ((w.kind = .diverge ∧ b = w.straight ∧ q = some { switch := n, position := .straight }) ∨
       (w.kind = .diverge ∧ b = w.diverge ∧ q = some { switch := n, position := .diverge }) ∨
       (w.kind = .merge ∧ a = w.straight ∧ b = w.root ∧ q = some { switch := n, position := .straight }) ∨
       (w.kind = .merge ∧ a = w.diverge ∧ b = w.root ∧ q = some { switch := n, position := .diverge })))

/-- A path along the exits from zone `a`: the zones entered in order, each with the requirement of entering it (R14). -/
def Layout.path (l : Layout) (a : ZoneId) : List (ZoneId × Option Requirement) → Prop
  | [] => True
  | x :: xs => l.passage a x.1 x.2 ∧ l.path x.1 xs

/-- A path from a stoppable zone over RUN zones to the first stoppable zone, which ends it (R14). -/
def Layout.legPath (l : Layout) (a : ZoneId) (xs : List (ZoneId × Option Requirement)) : Prop :=
  l.stoppableZone a ∧ l.path a xs ∧ (∃ x, xs.getLast? = some x ∧ l.stoppableZone x.1) ∧
  ∀ x ∈ xs.dropLast, ∃ r, l.zones[x.1] = some r ∧ r.kind = .run

/-- The fields of LOAD_STEP at step `k` pass the argument check of R78. -/
def stepAdmissible (l : Layout) (k : StepId) (f : StepFields) : Prop :=
  (f.action ≠ none → ∃ z : ZoneId, f.zone = z.val ∧ l.stoppableZone z) ∧ (f.action = some .hold → f.dwell ≤ 255) ∧
  ∀ o e, f.opener = some (o, e) → k.val < e ∧ e ≤ 15 ∧ ∀ n, o = .counted n → n ≤ 255

/-- The step record stored for these fields with an action other than NONE (R78): the dwell of a HOLD step alone. -/
def stepStores (f : StepFields) (r : RouteStep) : Prop :=
  r.zone.val = f.zone ∧
  f.action = some (match r.action with
    | .pass => .pass
    | .hold _ => .hold
    | .dispatch => .dispatch
    | .park => .park) ∧ (∀ d, r.action = .hold d → d = f.dwell) ∧
  r.opener.map (fun o => (o.kind, o.endStep.val)) = f.opener

/-! ### Long replies (R179) -/

/-- The items of a part of a long reply: a field is one, and so is each entry of a list field. -/
def Part.items : Part → List (List Byte)
  | .field bs => [bs]
  | .list es => es

/-- How many items these parts have. -/
def itemCount (xs : List Part) : Nat := (xs.flatMap Part.items).length

/-- The bytes of the items from number `a` to before number `b` of these parts, the first of them being number `i`: a list's
count byte stands before its first entry carried, and at the list's place for an empty one within the items carried. -/
def carriedBytes (a b : Nat) : Nat → List Part → List Byte
  | _, [] => []
  | i, .field bs :: xs => (if a ≤ i ∧ i < b then bs else []) ++ carriedBytes a b (i + 1) xs
  | i, .list es :: xs =>
    let kept := (es.take (b - i)).drop (a - i)
    (if kept ≠ [] ∨ (es = [] ∧ a ≤ i ∧ i < b) then byteOf kept.length :: kept.flatten else []) ++
      carriedBytes a b (i + es.length) xs

/-- How many empty lists stand behind the last item of these parts. -/
def emptyEnd (xs : List Part) : Nat := (xs.reverse.takeWhile fun x => decide (x = .list [])).length

/-! ### What an event on the track leaves alone -/

/-- The stores, the inputs and the model's own fields are as they were, and on every port everything but the notice queue,
its summary and its overflow flag. -/
def sameButTrack (s t : State) : Prop :=
  t.layout = s.layout ∧ t.routes = s.routes ∧ t.inputs = s.inputs ∧ t.time = s.time ∧ t.choices = s.choices ∧
  t.pending = s.pending ∧ t.sampleDue = s.sampleDue ∧
  ∀ p : PortId, ∃ n m o, t.ports[p] = { s.ports[p] with notices := n, summary := m, overflow := o }

/-! ### Bounds and invariants -/

/-- A port's queues are within their bounds (R167). -/
def Port.bounded (r : Port) : Prop :=
  r.commands.length ≤ Config.commandQueueSize ∧ r.replies.length ≤ Config.replyQueueSize ∧
  r.notices.length ≤ Config.noticeQueueSize

/-- The queues of all ports are within their bounds (R167). -/
def State.queuesBounded (s : State) : Prop := ∀ p : PortId, (s.ports[p]).bounded

/-- A command waits only while the reply queue is full (R171). -/
def State.waitsForRoom (s : State) : Prop :=
  ∀ p : PortId, (s.ports[p]).commands = [] ∨ (s.ports[p]).replies.length = Config.replyQueueSize

/-- The claim list holds at most 12 claims, and the line is used only while it holds 12 (R93, R94). -/
def Track.listBounded (w : Track) : Prop :=
  w.claims.length ≤ Config.claimListSize ∧ (w.claims.length < Config.claimListSize → w.line = [])

/-- The modes of an uncommitted layout are UNCONFIGURED and ESTOPPED, and UNCONFIGURED is of an uncommitted one alone
(Table 10-1). -/
def State.modeAgrees (s : State) : Prop :=
  (s.layout.committed = false → s.track.mode = .unconfigured ∨ s.track.mode = .estopped) ∧
  (s.track.mode = .unconfigured → s.layout.committed = false)

/-! ### The release rule as conditions (R28) -/

/-- Case (a) of R28: in OPERATING, a train that has the zone in its footprint or its authority holds in its authority the
whole leg that starts there, every switch of it settled in the required position. -/
def Track.trainMayPass (w : Track) (z : ZoneId) : Prop :=
  w.mode = .operating ∧ ∃ t : TrainId,
    (z ∈ (w.trains[t]).footprint ∨ z ∈ (w.trains[t]).ahead) ∧
    ∃ g ∈ (w.trains[t]).authority, g.start = z ∧ g.started = false ∧
      ∀ q ∈ g.reqs, w.switchState q.switch = some (.settled q.position)

/-- Case (b) of R28: the zone is HANDED, its section's master has asked for release, and the mode is not ESTOPPED. -/
def Track.masterReleases (w : Track) (z : ZoneId) : Prop :=
  w.mode ≠ .estopped ∧ ∃ (p : PortId) (h : HeldSection),
    w.zoneState z = some (.handed p) ∧ w.sections[p] = .held h ∧ h.request z = .released

/-- Every hold of a stoppable zone is RELEASED in the two cases of R28 and HELD in every other. -/
def Track.holdsFollow (w : Track) : Prop :=
  ∀ (z : ZoneId) (r : Zone) (b : Brake), w.zones[z] = some r → r.brake = some b →
    (b.hold = .released ↔ w.trainMayPass z ∨ w.masterReleases z)

/-! ### Switches and the emergency stop (R125, R134, R156) -/

/-- A drive is on only while the switch is MOVING with its position as the target, and then it is on (R125). -/
def Switch.drivesAgree (r : Switch) : Prop :=
  (r.driveStraight = true ↔ ∃ l x, r.state = .moving .straight l x) ∧
  (r.driveDiverge = true ↔ ∃ l x, r.state = .moving .diverge l x)

/-- The drives of every switch agree with its state. -/
def Track.drivesFollow (w : Track) : Prop :=
  ∀ (n : SwitchId) (r : Switch), w.switches[n] = some r → r.drivesAgree

/-- No switch is MOVING. -/
def Track.noneMoving (w : Track) : Prop :=
  ∀ (n : SwitchId) (r : Switch), w.switches[n] = some r → r.isMoving = false

/-- Drives follow the moves, no switch moves in ESTOPPED, and an uncommitted layout has no switch record (R125, R134,
R136). -/
def State.switchesSafe (s : State) : Prop :=
  s.track.drivesFollow ∧ (s.track.mode = .estopped → s.track.noneMoving) ∧
  (s.layout.committed = false → ∀ n : SwitchId, s.track.switches[n] = none)

/-- While an ESTOP line is active as last delivered the mode is ESTOPPED, and the clear time runs only in ESTOPPED with both
lines inactive (R149, R156, R158). -/
def State.estopAgrees (s : State) : Prop :=
  (∀ k : EstopId, inputSeen s.layout s.inputs (.estop k) = true → s.track.mode = .estopped) ∧
  (s.track.mode ≠ .estopped → s.track.estopClear = none) ∧
  (s.track.estopClear ≠ none → ∀ k : EstopId, inputSeen s.layout s.inputs (.estop k) = false)

/-! ### Zones, trains and claims (R18, R54 to R58) -/

/-- A zone is RESERVED by a train exactly when it is in its authority, and OCCUPIED by it exactly when it is in its footprint
(R18). -/
def Track.zonesAgree (w : Track) : Prop :=
  (∀ (z : ZoneId) (t : TrainId), w.zoneState z = some (.reserved t) ↔ z ∈ (w.trains[t]).ahead) ∧
  ∀ (z : ZoneId) (t : TrainId), w.zoneState z = some (.occupied t) ↔ z ∈ (w.trains[t]).footprint

/-- No zone is in the footprint or the authority of two trains, or in both of one (R18). -/
def Track.noneShared (w : Track) : Prop :=
  ∀ (z : ZoneId) (t u : TrainId),
    (z ∈ (w.trains[t]).footprint ∨ z ∈ (w.trains[t]).ahead → z ∈ (w.trains[u]).footprint ∨ z ∈ (w.trains[u]).ahead → t = u) ∧
    ¬ (z ∈ (w.trains[t]).footprint ∧ z ∈ (w.trains[t]).ahead)

/-- A train's lists name no zone twice and no leg entry is empty; a train that is not tracked has none, a STORED one no authority,
and one at rest has one footprint zone (Table 4-1, R56, R57). -/
def Train.listsAgree (r : Train) : Prop :=
  r.footprint.Nodup ∧ r.ahead.Nodup ∧ (∀ g ∈ r.authority, g.zones ≠ []) ∧
  (r.state = .absent ∨ r.state = .manual ∨ r.state = .lost → r.footprint = [] ∧ r.authority = []) ∧
  (r.state = .stored → r.authority = []) ∧ (r.atRest = true → ∃ z, r.footprint = [z])

/-- A LEG claim asks for one zone or more, none of them twice, and its train is one that can hold a leg (R59, R109). -/
def Track.claimsAgree (w : Track) : Prop :=
  ∀ (c : Claim) (g : LegClaim), c ∈ w.claims ++ w.line → c.body = .leg g → g.zones ≠ [] ∧ g.zones.Nodup ∧
    ((w.trains[g.train]).state = .standing ∨ (w.trains[g.train]).state = .claiming ∨ (w.trains[g.train]).state = .cleared ∨
      (w.trains[g.train]).state = .running ∨ (w.trains[g.train]).state = .halted)

/-- The zones of a held section are HANDED to its port (R137). -/
def Track.sectionsAgree (w : Track) : Prop :=
  ∀ (p : PortId) (h : HeldSection), w.sections[p] = .held h → ∀ z ∈ h.zones, w.zoneState z = some (.handed p)

/-- Zone states, footprints and authorities agree; with what keeps them so: the lists of the trains, the zones of claims and of
the leg set, the zones of held sections, and no train or held section without a committed layout. -/
def State.trackAgrees (s : State) : Prop :=
  s.track.zonesAgree ∧ (∀ t : TrainId, (s.track.trains[t]).listsAgree) ∧ s.track.claimsAgree ∧ s.track.sectionsAgree ∧
  (∀ g ∈ s.layout.legs, g.zones ≠ [] ∧ g.zones.Nodup) ∧ s.modeAgrees ∧
  (s.layout.committed = false →
    (∀ t : TrainId, (s.track.trains[t]).state = .absent) ∧ ∀ (p : PortId) (h : HeldSection), s.track.sections[p] ≠ .held h)

/-- What keeps brakes and drives safe: holds follow the release rule, drives the moves, and the mode the ESTOP lines and the
commit state. -/
def State.safe (s : State) : Prop := s.track.holdsFollow ∧ s.switchesSafe ∧ s.estopAgrees ∧ s.modeAgrees

/-! ### Steps -/

/-- Every step from a state with the property that answers a next state answers one with it. -/
def Kept (P : State → Prop) : Prop := ∀ s t : State, P s → step s = .next t → P t

end Sys2Proof.Machine
end

