-- ==== Sys2Proof/Certificates/Slice0/Obligations.lean ====
section
/-! DEFINITION. The statements for the provers. A command row is stated on an idle port (R171) unless the statement says
otherwise; its clauses follow the order of examination of its rule. -/

open Sys2Proof Sys2Proof.Machine

/-! ### Steps and starts -/

/-- A step with a command at the front of the queue runs it on the state with the queue's rest. -/
def Obligations.StepRunsTheFrontCommand : Prop :=
  ∀ (s : State) (c : Instr) (rest : List Instr),
    step { s with pending := c :: rest } = exec c { s with pending := rest }

/-- The step on an empty queue (the model's choice, log 2 and log 3): one millisecond where no event is due, else one of the
due events. An event is due exactly when its timer stands at 0, the occupancy sample of a boundary is not yet taken, or an
input's change is not yet delivered. -/
def Obligations.StepOnEmptyQueue : Prop :=
  (∀ s : State, s.pending = [] →
     (dueEvents s = [] → step s = .next s.tick) ∧
     (∀ i, dueEvents s = [i] → step s = exec i s) ∧
     (2 ≤ (dueEvents s).length →
       ∃ i ∈ dueEvents s, step s = exec i { s with choices := s.choices + 1 })) ∧
  ∀ s : State, let due := fun i : Instr => i ∈ dueEvents s
    let told := fun (i : InputId) (a : Bool) => (inputLine s.inputs i).due = true ∧ inputActive s.layout s.inputs i = a
    (∀ z, due (.settleExpiry z) ↔ ∃ t, s.track.zoneState z = some (.clearing t 0)) ∧
    (∀ z, due (.holdConfirmExpiry z) ↔ ∃ b, s.track.brake z = some b ∧ b.supervision = .awaiting 0) ∧
    (∀ z : ZoneId, due (.passageGapExpiry z) ↔
      (∃ q n, s.track.trackers[z] = some (.passing q n (some 0))) ∨ s.track.trackers[z] = some (.stuck (some 0))) ∧
    (∀ z : ZoneId, due (.passageLimitExpiry z) ↔ ∃ q g, s.track.trackers[z] = some (.passing q 0 g)) ∧
    (∀ t : TrainId, due (.dwellExpiry t) ↔ (s.track.trains[t]).dwell = some 0) ∧
    (∀ t : TrainId, due (.departureWindowExpiry t) ↔ (s.track.trains[t]).departure = some 0) ∧
    (∀ t : TrainId, due (.travelLimitExpiry t) ↔ (s.track.trains[t]).travel = some 0) ∧
    (∀ k, due (.claimWaitExpiry k) ↔
      ∃ c ∈ s.track.claims ++ s.track.line, c.claimant = k ∧ c.state = .waiting ∧ c.wait = some 0) ∧
    (∀ n, due (.moveLimitExpiry n) ↔ ∃ q v, s.track.switchState n = some (.moving q 0 v)) ∧
    (∀ p : PortId, due (.leaseExpiry p) ↔ (s.ports[p]).leaseRemaining = some 0) ∧
    (due .estopClearExpiry ↔ s.track.estopClear = some 0) ∧ (due .occupancySample ↔ s.sampleDue = true) ∧
    (∀ z a, due (.entrySensorChange z a) ↔ told (.entry z) a) ∧ (∀ z a, due (.stopSensorChange z a) ↔ told (.stop z) a) ∧
    (∀ z a, due (.holdFeedbackChange z a) ↔ told (.feedback z) a) ∧
    (∀ n q a, due (.switchPositionChange n q a) ↔ told (.position n q) a) ∧
    (∀ r a, due (.readyChange r a) ↔ told (.ready r) a) ∧ (∀ k a, due (.estopLineChange k a) ↔ told (.estop k) a) ∧
    ∀ i, due i → i.command = none ∧ i ≠ .coldStart ∧ i ≠ .warmStart ∧ (∀ p b, i ≠ .commandFrame p b) ∧
      (∀ p n, i ≠ .readFrame p n) ∧ (∀ p n, i ≠ .repeatFrame p n) ∧ ∀ n, i ≠ .moveArrival n

/-- One millisecond (log 2; the occupancy boundary, log 16): every running timer counts one down, the sampler takes one sample
of every line, and nothing else changes but the time and the sample boundary. -/
def Obligations.MillisecondTick : Prop :=
  ∀ s : State, s.pending = [] → dueEvents s = [] → ∃ t, step s = .next t ∧
    t.layout = s.layout ∧ t.routes = s.routes ∧ t.pending = [] ∧ t.choices = s.choices ∧ t.time = s.time + 1 ∧
    (t.sampleDue = true ↔ s.layout.committed = true ∧ (s.time + 1) % 250 = 0) ∧
    t.track.mode = s.track.mode ∧ t.track.estopClear = s.track.estopClear.map (· - 1) ∧
    t.track.sections = s.track.sections ∧ t.track.nextSeq = s.track.nextSeq ∧
    (∀ x : TrainId, t.track.trains[x] = { s.track.trains[x] with
      dwell := (s.track.trains[x]).dwell.map (· - 1), departure := (s.track.trains[x]).departure.map (· - 1)
      travel := (s.track.trains[x]).travel.map (· - 1) }) ∧
    (∀ z : ZoneId, t.track.zones[z] = (s.track.zones[z]).map fun r => { r with
      state := (match r.state with
        | .clearing x n => .clearing x (n - 1)
        | x => x)
      brake := r.brake.map fun b => { b with supervision := match b.supervision with
        | .awaiting n => .awaiting (n - 1)
        | x => x } }) ∧
    (∀ z : ZoneId, t.track.trackers[z] = (s.track.trackers[z]).map fun x => match x with
      | .passing q n g => .passing q (n - 1) (g.map (· - 1))
      | .stuck g => .stuck (g.map (· - 1))
      | .idle => .idle) ∧
    (let age := fun c : Claim => match c.state with
      | .waiting => { c with wait := c.wait.map (· - 1) }
      | .setting _ => c
     t.track.claims = s.track.claims.map age ∧ t.track.line = s.track.line.map age) ∧
    (∀ n : SwitchId, t.track.switches[n] = (s.track.switches[n]).map fun r => { r with
      state := (match r.state with
        | .moving q k v => .moving q (k - 1) v
        | x => x) }) ∧
    ∀ p : PortId, t.ports[p] = { s.ports[p] with leaseRemaining := (s.ports[p]).leaseRemaining.map (· - 1) }

/-- One sample of every line (R38, R39, Table 3-2; the tick is the model's, log 2): the third differing sample changes the
level, and the change is due where somebody owns the input. What an owner sees of an input (R37, R39): the debounced level
against the active level, and until it is established the safe level of R39; and what it has last been told: the same, but for
a change not yet delivered. -/
def Obligations.SamplerAndInputLevels : Prop :=
  (∀ (s : State) (i : InputId), let x := inputLine s.inputs i; let y := inputLine s.tick.inputs i
     let owned := hasOwner s.layout i
     (x.established = true → x.pin = x.level → y = { x with count := 0 }) ∧
     (x.established = true → x.pin ≠ x.level → x.count < 2 → y = { x with count := x.count + 1 }) ∧
     (x.established = true → x.pin ≠ x.level → 2 ≤ x.count → y = { x with level := x.pin, count := 0, due := owned }) ∧
     (x.established = false → x.count = 0 ∨ x.pin ≠ x.last → y = { x with last := x.pin, count := 1 }) ∧
     (x.established = false → x.count ≠ 0 → x.pin = x.last → x.count < 2 → y = { x with count := x.count + 1 }) ∧
     (x.established = false → x.pin = x.last → 2 ≤ x.count → y = { x with
       established := true, level := x.pin, count := 0
       due := owned && decide (x.pin ≠ wireLevel s.layout i (safeActive i)) })) ∧
  (∀ (l : Layout),
     (∀ z : ZoneId, hasOwner l (.entry z) = true ↔ l.committed = true ∧ l.zones[z] ≠ none) ∧
     (∀ z : ZoneId, hasOwner l (.stop z) = true ↔ l.committed = true ∧ l.stoppableZone z) ∧
     (∀ z : ZoneId, hasOwner l (.feedback z) = true ↔ l.committed = true ∧ l.stoppableZone z) ∧
     (∀ (n : SwitchId) q, hasOwner l (.position n q) = true ↔ l.committed = true ∧ l.switches[n] ≠ none) ∧
     (∀ i, hasOwner l (.ready i) = true ↔
       l.committed = true ∧ ∃ (z : ZoneId) (r : ZoneLayout), l.zones[z] = some r ∧ r.kind = .station ∧ r.ready = some i) ∧
     ∀ k, hasOwner l (.estop k) = true) ∧
  (∀ (l : Layout) (x : Inputs) (i : InputId),
     ((inputLine x i).established = true → (inputActive l x i = true ↔ (inputLine x i).level = activeHigh l i)) ∧
     ((inputLine x i).established = false →
       (inputActive l x i = true ↔
         (∃ z, i = .entry z) ∨ (∃ z, i = .stop z) ∨ ∃ k, i = .estop k)) ∧
     ((inputLine x i).due = false → inputSeen l x i = inputActive l x i) ∧
     ((inputLine x i).due = true → inputSeen l x i = !inputActive l x i) ∧
     (∀ z, activeHigh l (.feedback z) = true) ∧ (∀ n q, activeHigh l (.position n q) = true) ∧
     (∀ r, activeHigh l (.ready r) = true) ∧ (∀ k, activeHigh l (.estop k) = false) ∧
     (∀ z, l.committed = false ∨ l.zones[z] = none → activeHigh l (.entry z) = true ∧ activeHigh l (.stop z) = true) ∧
     (∀ z r, l.committed = true → l.zones[z] = some r → activeHigh l (.entry z) = r.entryHigh) ∧
     (∀ z r b, l.committed = true → l.zones[z] = some r → r.stopHigh = some b → activeHigh l (.stop z) = b))

/-- The machine after a cold start, as the manual gives it (R16, R35, R39, R46, R74, R84, R112, R136, R148, R164, R177).
State.reset is the machine after a cold start with all wires low (log 6) and no command waiting; wires, waiting commands and
the model's own counter are kept (log 6, log 22). -/
def Obligations.ColdStart : Prop :=
  (∀ s : State, ∃ t, exec .coldStart s = .next t ∧
     (∀ z : ZoneId, t.layout.zones[z] = none) ∧ (∀ n : SwitchId, t.layout.switches[n] = none) ∧
     (∀ p : PortId, p ≠ 0 → t.layout.roles[p] = .observer) ∧ t.layout.bypassLimit = 0 ∧ t.layout.holdConfirm = 4 ∧
     t.layout.lookBack = 3 ∧ t.layout.committed = false ∧ t.layout.legs = [] ∧
     (∀ r : RouteId, t.routes[r] = { state := .empty, slots := Vector.replicate 16 none }) ∧
     (∀ i, (inputLine t.inputs i).established = false ∧ (inputLine t.inputs i).count = 0) ∧
     t.track.mode = .estopped ∧ t.track.estopClear = none ∧
     (∀ z : ZoneId, t.track.zones[z] = none ∧ t.track.trackers[z] = none) ∧
     (∀ x : TrainId, (t.track.trains[x]).state = .absent) ∧ t.track.claims = [] ∧ t.track.line = [] ∧ t.track.nextSeq = 0 ∧
     (∀ n : SwitchId, t.track.switches[n] = none) ∧ (∀ p : PortId, t.track.sections[p] = .none) ∧ t.time = 0 ∧
     ∀ p : PortId, let r := t.ports[p]
       r.role = (if p = 0 then .supervisor else .observer) ∧ r.commands = [] ∧ r.replies = [] ∧ r.notices = [] ∧
       r.lastReturned = none ∧ r.rejected = false ∧ r.mask = (if p = 0 then 0x7F else 0x20) ∧ r.summary = 0 ∧
       r.overflow = false ∧ r.leaseCount = 0 ∧ r.leaseRemaining = none ∧ r.lapsed = false ∧ r.lapseSeen = false) ∧
  (exec .coldStart State.reset = .next State.reset ∧
   ∀ s : State, exec .coldStart s =
     .next { State.reset with inputs := s.inputs.cleared, choices := s.choices, pending := s.pending })

/-- A warm start (R36, R39, R46, R74, R112, R136, R148, R165, R177): the mode by the table of R165, with the MODE notice to
every port whose mask admits it; layout and routes kept, the levels and counts of the sampler kept with no change left to
deliver (log 5), the time restarted; and what it makes of trains, claims, sections, zones, trackers, switches and ports. The
waiting commands and the model's own counter are kept (log 22), and the bytes a port's last frame returned (log 17).
RESTART (R166): ROLE from a port other than CP0, else a warm start and the reply DONE behind it. -/
def Obligations.WarmStartAndRestart : Prop :=
  (∀ s : State, ∃ t, exec .warmStart s = .next t ∧ t.layout = s.layout ∧ t.routes = s.routes ∧
     (∀ i, inputLine t.inputs i = { inputLine s.inputs i with due := false }) ∧
     t.time = 0 ∧ t.sampleDue = false ∧ t.choices = s.choices ∧ t.pending = s.pending ∧
     ((∃ k, inputActive s.layout s.inputs (.estop k) = true) → t.track.mode = .estopped ∧ t.track.estopClear = none) ∧
     ((∀ k, inputActive s.layout s.inputs (.estop k) = false) → s.track.mode = .estopped →
       t.track.mode = .estopped ∧ t.track.estopClear = some 500) ∧
     ((∀ k, inputActive s.layout s.inputs (.estop k) = false) → s.track.mode ≠ .estopped → s.layout.committed = true →
       t.track.mode = .halted ∧ t.track.estopClear = none) ∧
     ((∀ k, inputActive s.layout s.inputs (.estop k) = false) → s.track.mode ≠ .estopped → s.layout.committed = false →
       t.track.mode = .unconfigured ∧ t.track.estopClear = none) ∧
     (∀ x : TrainId, (s.track.trains[x]).state = .absent → t.track.trains[x] = s.track.trains[x]) ∧
     (∀ x : TrainId, (s.track.trains[x]).state ≠ .absent → t.track.trains[x] = { s.track.trains[x] with
       state := .lost, footprint := [], authority := [], sectionPort := none, dwell := none, departure := none
       travel := none, ride := (s.track.trains[x]).ride.map fun d => { d with stalled := false } }) ∧
     t.track.claims = [] ∧ t.track.line = [] ∧ t.track.nextSeq = 0 ∧ (∀ p : PortId, t.track.sections[p] = .none) ∧
     (∀ z : ZoneId, s.track.zones[z] = none → t.track.zones[z] = none) ∧
     (∀ (z : ZoneId) (r : Zone), s.track.zones[z] = some r → ∃ q : Zone, t.track.zones[z] = some q ∧
       q.history = ((occupiedState r.state || stopActive s.env z) :: r.history).take 8 ∧
       q.brake = r.brake.map (fun _ => { hold := .held, supervision := .awaiting (s.layout.holdConfirm * 50) }) ∧
       (q.state = .clear ∨ q.state = .unknown) ∧
       (q.state = .clear ↔ (∀ k, r.state ≠ .fault k) ∧ (∀ p, r.state ≠ .handed p) ∧ s.layout.lookBack < q.history.length ∧
         (∀ n, n ≤ s.layout.lookBack → q.history[n]? = some false) ∧ stopActive s.env z = false)) ∧
     (∀ z : ZoneId, t.track.trackers[z] = (s.track.trackers[z]).map fun _ => freshTracker s.env z) ∧
     (∀ n : SwitchId, t.track.switches[n] = (s.track.switches[n]).map fun _ =>
       { state := (match s.env.positionRead n with
           | some q => .settled q
           | none => .unknown)
         attempts := 0, sectionPort := none, driveStraight := false, driveDiverge := false }) ∧
     ∀ p : PortId, let r := t.ports[p]; let q := s.ports[p]
       r.role = q.role ∧ r.mask = q.mask ∧ r.leaseCount = q.leaseCount ∧ r.leaseUnit = q.leaseUnit ∧ r.commands = [] ∧
       r.replies = [] ∧ r.lastReturned = none ∧ r.rejected = false ∧ r.overflow = false ∧ r.lapsed = false ∧
       r.lapseSeen = false ∧ r.leaseRemaining = q.leaseFull ∧ r.dataOut = q.dataOut ∧
       r.notices = if q.mask.getLsbD 5 then
           [{ note := { name := .mode, subject := .mode t.track.mode
                        detail1 := byteOf (modeCode s.track.mode * 32 + 7), detail2 := 0xFF }, time := 0 }]
         else []) ∧
  (∀ (s : State) (p : PortId), s.idlePort p →
     (p ≠ 0 → refusesWith (.restart p) p 0x21 .role s) ∧
     (p = 0 → ∃ t, exec .warmStart s = .next t ∧ exec (.restart p) s = .next (replied p 0x21 (.done []) t)))

/-! ### Ports, frames and notices -/

/-- A command row (R171; the row as such is the model's, log 7): executed at once on an idle port, discarded with 4 commands
queued, and else it joins the queue. The head of a command queue (R171): it waits while the reply queue holds 4 replies, is
refused with ARGUMENT where its code, count or encoding is wrong, and else executed by its rule, its reply joining the reply
queue. With the pre-lapse mark (R176) DISPATCH, MOVE and REQUEST_SECTION are refused and change nothing; every other command
is performed in the ordinary way. -/
def Obligations.CommandRowsAndHead : Prop :=
  (∀ (s : State) (i : Instr) (p : PortId) (c : Command), i.command = some (p, c) →
     (s.idlePort p → exec i s =
       .next (replied p (BitVec.ofNat 8 (commandCode c)) (perform p false c s).2 (perform p false c s).1)) ∧
     (4 ≤ (s.ports[p]).commands.length → exec i s = .next s) ∧
     ((s.ports[p]).commands.length < 4 → exec i s = .next (runHead p (s.modifyPort p fun r => { r with
       commands := r.commands ++ [{ code := BitVec.ofNat 8 (commandCode c), command := some c, preLapse := false }] })))) ∧
  (∀ (s : State) (p : PortId),
     ((s.ports[p]).commands = [] → runHead p s = s) ∧
     (4 ≤ (s.ports[p]).replies.length → runHead p s = s) ∧
     (∀ c rest, (s.ports[p]).commands = c :: rest → (s.ports[p]).replies.length < 4 →
       let u := s.modifyPort p fun r => { r with commands := rest }
       (c.command = none → runHead p s = replied p c.code (.refused .argument) u) ∧
       ∀ x, c.command = some x →
         runHead p s = replied p c.code (perform p c.preLapse x u).2 (perform p c.preLapse x u).1)) ∧
  (∀ (s : State) (p : PortId),
     (∀ z, ∃ r, perform p true (.dispatch z) s = (s, .refused r)) ∧ (∀ z, ∃ r, perform p true (.move z) s = (s, .refused r)) ∧
     (∀ zs w, ∃ r, perform p true (.requestSection zs w) s = (s, .refused r)) ∧
     ∀ c, (∀ z, c ≠ .dispatch z) → (∀ z, c ≠ .move z) → (∀ zs w, c ≠ .requestSection zs w) →
       perform p true c s = perform p false c s)

/-- A command frame (R168, R175, R176; what a frame shifts out is kept in the model's own field, log 17): with 4 commands
queued it is discarded and sets nothing; a frame that fails the check sets rejected; a frame taken joins the queue, restarts
the lease and returns the port to ACTIVE. The check (R168, Table 13-1): kind byte A5, length, code, parameters and the CRC-8
of what comes before it. -/
def Obligations.CommandFrames : Prop :=
  (∀ (s : State) (p : PortId) (bytes : List Byte), bytes.head? ≠ some 0x3C → bytes.head? ≠ some 0x3D →
     let out := ((s.statusOf p) :: List.replicate bytes.length 0).take bytes.length
     let u := s.modifyPort p fun r => { r with rejected := false, dataOut := out }
     (4 ≤ (s.ports[p]).commands.length → exec (.commandFrame p bytes) s = .next u) ∧
     ((s.ports[p]).commands.length < 4 → checkFrame bytes = none →
       exec (.commandFrame p bytes) s = .next (u.modifyPort p fun r => { r with rejected := true })) ∧
     (∀ f, (s.ports[p]).commands.length < 4 → checkFrame bytes = some f →
       let v := u.modifyPort p fun r =>
         { r with commands := r.commands ++
                    [{ code := f.code, command := decodeCommand f.code.toNat (f.params.map (·.toNat)), preLapse := false }]
                  lapsed := false, leaseRemaining := r.leaseFull }
       ((s.ports[p]).lapsed = false → exec (.commandFrame p bytes) s = .next (runHead p v)) ∧
       ((s.ports[p]).lapsed = true → exec (.commandFrame p bytes) s =
         .next (runHead p (v.run fun _ w => w.post [0] .leaseResumed (.port p)))))) ∧
  ∀ (bytes : List Byte) (code : Byte) (params : List Byte),
    checkFrame bytes = some { code := code, params := params } ↔
      ∃ len : Byte, len.toNat = params.length ∧ params.length ≤ 30 ∧
        bytes = 0xA5 :: len :: code :: (params ++ [crc8 (0xA5 :: len :: code :: params)])

/-- READ and REPEAT frames (R169): a READ of 35 bytes or more takes the oldest reply, else the oldest notice, else returns an
EMPTY record, and lets the head command be executed; a REPEAT returns the last record and removes nothing; a shorter frame
sets rejected. A command frame row of one of these kind bytes is the same. -/
def Obligations.ReadFrames : Prop :=
  ∀ (s : State) (p : PortId) (n : Nat), let r := s.ports[p]
    let out := fun x : Record => ((s.statusOf p) :: (recordBytes x ++ List.replicate n 0)).take n
    (35 ≤ n → ∀ x xs, r.replies = x :: xs → exec (.readFrame p n) s = .next (runHead p (s.modifyPort p fun r =>
      { r with rejected := false, dataOut := out (.reply x), replies := xs, lastReturned := some (.reply x) }))) ∧
    (35 ≤ n → r.replies = [] → ∀ x xs, r.notices = x :: xs →
      exec (.readFrame p n) s = .next (runHead p (s.modifyPort p fun r =>
        { r with rejected := false, dataOut := out (.notice x), notices := xs, lastReturned := some (.notice x) }))) ∧
    (35 ≤ n → r.replies = [] → r.notices = [] →
      exec (.readFrame p n) s = .next (runHead p (s.modifyPort p fun r =>
        { r with rejected := false, dataOut := out .empty, lastReturned := some .empty }))) ∧
    (n < 35 → ∃ o, exec (.readFrame p n) s = .next (s.modifyPort p fun r => { r with rejected := true, dataOut := o })) ∧
    (35 ≤ n → exec (.repeatFrame p n) s =
      .next (s.modifyPort p fun r => { r with rejected := false, dataOut := out (r.lastReturned.getD .empty) })) ∧
    (n < 35 → ∃ o, exec (.repeatFrame p n) s = .next (s.modifyPort p fun r => { r with rejected := true, dataOut := o })) ∧
    ∀ bytes : List Byte,
      (bytes.head? = some 0x3C → exec (.commandFrame p bytes) s = exec (.readFrame p bytes.length) s) ∧
      (bytes.head? = some 0x3D → exec (.commandFrame p bytes) s = exec (.repeatFrame p bytes.length) s)

/-- The status byte (R170, Table 13-3): the mode in bits 7 to 5, and the five flags. The attention output (R170): asserted
exactly while a reply or a notice waits. -/
def Obligations.StatusByteAndAttention : Prop :=
  ∀ (s : State) (p : PortId), let b := s.statusOf p; let r := s.ports[p]
    b.toNat / 32 = modeCode s.track.mode ∧
    (b.getLsbD 4 = true ↔ r.replies ≠ []) ∧ (b.getLsbD 3 = true ↔ r.notices ≠ []) ∧
    (b.getLsbD 2 = true ↔ 4 ≤ r.commands.length) ∧ (b.getLsbD 1 = r.rejected) ∧
    (b.getLsbD 0 = true ↔ r.lapseSeen = true ∨ ∃ h, s.track.sections[p] = .held h ∧ h.yield = true) ∧
    (r.attention = true ↔ r.replies ≠ [] ∨ r.notices ≠ [])

/-- A notice reaches the ports it names and those their role entitles (Table 11-3), where the mask admits its class; it is
queued with its summary flag, or dropped with overflow when 8 are queued (R172). -/
def Obligations.NoticeQueueing : Prop :=
  ∀ (s : State) (o : Post) (p : PortId), let r := s.ports[p]; let k := classNumber (noticeClass o.note.name)
    let due := (p ∈ o.named ∨
        (r.role = .supervisor ∧ k = 7) ∨ (r.role = .station ∧ k = 6) ∨
        (r.role = .station ∧ k = 5 ∧ ∃ z l, o.note.subject = .zone z ∧ s.layout.zones[z] = some l ∧ l.owner = some p) ∨
        (r.role = .transfer ∧ (k = 6 ∨ k = 4)) ∨ (r.role = .observer ∧ (k = 6 ∨ k = 5))) ∧ r.mask.getLsbD (k - 1) = true
    (due → r.notices.length < 8 → (s.deliver [o]).ports[p] =
      { r with notices := r.notices ++ [{ note := o.note, time := BitVec.ofNat 32 s.time }]
               summary := r.summary ||| (1 <<< (k - 1)) }) ∧
    (due → 8 ≤ r.notices.length → (s.deliver [o]).ports[p] = { r with overflow := true }) ∧
    (¬ due → (s.deliver [o]).ports[p] = r) ∧
    ∀ os, s.deliver (o :: os) = (s.deliver [o]).deliver os

/-! ### Reads, masks and leases -/

/-- PING and READ_STATUS (R174), from any port in any mode: PING changes no state; READ_STATUS clears summary, overflow and
lapse seen of its port, and carries its items in the order of R174 (the mask at its reply's end is the model's reading,
log 30; the codes, log 8 and log 9; the queue without the command itself, log 26). SET_MASK
(R173, R178): ARGUMENT for a class that does not exist, else the port's mask. SET_LEASE (R175; the unit's codes are the
model's, log 9): ROLE, then ARGUMENT, else the setting is stored, and an ACTIVE port's lease takes the new period. -/
def Obligations.PortCommands : Prop :=
  ((∀ (s : State) (p : PortId), s.idlePort p →
      (let n := s.time % 2 ^ 32
       exec (.ping p) s = .next (replied p 0x01 (.done [byteOf (n / 2 ^ 24), byteOf (n / 2 ^ 16), byteOf (n / 2 ^ 8),
         byteOf n, byteOf p.val, byteOf (roleCode (s.ports[p]).role)]) s)) ∧
      exec (.readStatus p) s = .next (replied p 0x02 (.done (statusData s p))
        (s.modifyPort p fun r => { r with summary := 0, overflow := false, lapseSeen := false }))) ∧
   (∀ (s : State) (p : PortId) (m : Nat), s.idlePort p →
      (128 ≤ m → refusesWith (.setMask p m) p 0x08 .argument s) ∧
      (m < 128 → exec (.setMask p m) s =
        .next (replied p 0x08 (.done []) (s.modifyPort p fun r => { r with mask := byteOf m }))))) ∧
  (∀ (s : State) (p : PortId), let r := s.ports[p]
     let flag := fun b : Bool => if b then (1 : Byte) else 0
     let lapse := fun q : PortId => if (s.ports[q]).lapsed then (2 : Byte) else 1
     statusData s p =
       [byteOf ([Mode.unconfigured, .standby, .operating, .halted, .estopped].idxOf s.track.mode + 1),
        byteOf ([Role.supervisor, .station, .transfer, .observer].idxOf r.role + 1), lapse 0, lapse 1, lapse 2, lapse 3,
        flag r.lapseSeen, (match s.track.sections[p] with
          | .held h => flag h.yield
          | _ => 0),
        flag r.overflow, r.summary, byteOf r.commands.length, byteOf r.replies.length, byteOf r.notices.length,
        byteOf r.leaseCount, (match r.leaseUnit with
          | .tenths => 1
          | .seconds => 2)] ++
       (match r.leaseRemaining with
         | some n => [byteOf (n / 2 ^ 16), byteOf (n / 2 ^ 8), byteOf n]
         | none => [0xFF]) ++ [r.mask]) ∧
  (∀ (s : State) (p : PortId) (n count unit : Nat), s.idlePort p →
     (p ≠ 0 → refusesWith (.setLease p n count unit) p 0x22 .role s) ∧
     (p = 0 → 4 ≤ n ∨ 256 ≤ count ∨ (unit ≠ 1 ∧ unit ≠ 2) → refusesWith (.setLease p n count unit) p 0x22 .argument s) ∧
     ∀ (q : PortId) (u : LeaseUnit), p = 0 → n = q.val → count ≤ 255 → unit = unitCode u →
       exec (.setLease p n count unit) s = .next (replied p 0x22 (.done []) (s.modifyPort q fun r =>
         { r with
           leaseCount := count, leaseUnit := u
           leaseRemaining :=
             if r.lapsed then r.leaseRemaining
             else if count = 0 then none
             else match u with
               | .tenths => some (count * 100)
               | .seconds => some (count * 1000) })))

/-- READ_ZONE and READ_SWITCH (R34, R135): MODE while uncommitted, ARGUMENT for a number out of range or undefined, else a
reply and no other change. READ_TRAIN and READ_CLAIM (R73, R111) and READ_STEP (R83), in any role and mode: the train's
fields; the counts of list and line with the claim at the position if one stands there; the route's state and holders with the
slot's fields; no other change. Each reply carries its items in the order of its rule and of Tables 2-1, 4-1, 6-1, 8-1 and
13-8; one of READ_TRAIN and READ_CLAIM leaves out the items skipped, carries whole items while they fit, and gives the number
left out at its end (R179). What the bytes leave open is the model's (log 8; levels, log 25; empty lists and what is an item,
log 23). -/
def Obligations.ReadRecords : Prop :=
  ((∀ (s : State) (p : PortId) (n : Nat), s.idlePort p →
      (s.layout.committed = false → refusesWith (.readZone p n) p 0x03 .mode s ∧ refusesWith (.readSwitch p n) p 0x05 .mode s) ∧
      (s.layout.committed = true → 32 ≤ n → refusesWith (.readZone p n) p 0x03 .argument s) ∧
      (∀ z : ZoneId, s.layout.committed = true → n = z.val → s.layout.zones[z] = none ∨ s.track.zones[z] = none →
        refusesWith (.readZone p n) p 0x03 .argument s) ∧
      (∀ (z : ZoneId) (l : ZoneLayout) (r : Zone), s.layout.committed = true → n = z.val → s.layout.zones[z] = some l →
        s.track.zones[z] = some r → exec (.readZone p n) s = .next (replied p 0x03 (.done (zoneData s.env z l r)) s)) ∧
      (s.layout.committed = true → 4 ≤ n → refusesWith (.readSwitch p n) p 0x05 .argument s) ∧
      (∀ k : SwitchId, s.layout.committed = true → n = k.val → s.layout.switches[k] = none ∨ s.track.switches[k] = none →
        refusesWith (.readSwitch p n) p 0x05 .argument s) ∧
      (∀ (k : SwitchId) (l : SwitchLayout) (r : Switch), s.layout.committed = true → n = k.val →
        s.layout.switches[k] = some l → s.track.switches[k] = some r →
        exec (.readSwitch p n) s = .next (replied p 0x05 (.done (switchData s.env s.track k l r)) s))) ∧
   (∀ (s : State) (p : PortId) (n k : Nat), s.idlePort p →
      (8 ≤ n → refusesWith (.readTrain p n k) p 0x04 .argument s) ∧
      (∀ t : TrainId, n = t.val → exec (.readTrain p n k) s =
        .next (replied p 0x04 (.done (packReply k (trainParts s.track.trains[t]))) s)) ∧
      ((s.track.claims ++ s.track.line)[n]? = none → exec (.readClaim p n k) s =
        .next (replied p 0x06 (.done (packReply k
          [.field [byteOf s.track.claims.length], .field [byteOf s.track.line.length]])) s)) ∧
      ∀ c, (s.track.claims ++ s.track.line)[n]? = some c → exec (.readClaim p n k) s =
        .next (replied p 0x06 (.done (packReply k
          ([.field [byteOf s.track.claims.length], .field [byteOf s.track.line.length]] ++
            claimParts s.layout c (decide (n < s.track.claims.length))))) s))) ∧
  (∀ (s : State) (p : PortId) (n m : Nat), s.idlePort p →
     (8 ≤ n ∨ 16 ≤ m → refusesWith (.readStep p n m) p 0x07 .argument s) ∧
     ∀ (r : RouteId) (k : StepId), n = r.val → m = k.val →
       exec (.readStep p n m) s = .next (replied p 0x07 (.done
         (routeStateData (s.routes[r]).state ++
           [byteOf (trainIds.filter fun t => decide ((s.track.trains[t]).ride.map (·.route) = some r)).length] ++
           stepData r k (s.routes[r]).slots[k])) s)) ∧
  (let flag := fun b : Bool => if b then (1 : Byte) else 0
   let ms := fun n : Nat => [byteOf (n / 2 ^ 16), byteOf (n / 2 ^ 8), byteOf n]
   let time := fun x : Option Nat => match x with
     | some n => ms n
     | none => [0xFF]
   let place := fun q : Position => match q with
     | .straight => (1 : Byte)
     | .diverge => 2
   let port := fun x : Option PortId => match x with
     | some p => byteOf p.val
     | none => 0xFF
   (∀ (e : Env) (z : ZoneId) (l : ZoneLayout) (r : Zone), e.layout.zones[z] = some l →
      let level := fun i => flag (inputActive e.layout e.inputs i)
      zoneData e z l r = [byteOf ([ZoneKind.station, .brake, .lift, .launch, .storage, .run].idxOf l.kind + 1)] ++
        (match r.state with
          | .clear => [1, 0xFF, 0xFF, 0xFF, 0xFF]
          | .reserved t => [2, byteOf t.val, 0xFF, 0xFF, 0xFF]
          | .occupied t => [3, byteOf t.val, 0xFF, 0xFF, 0xFF]
          | .clearing t n => [4, byteOf t.val] ++ ms n ++ [0xFF, 0xFF]
          | .unknown => [5, 0xFF, 0xFF, 0xFF, 0xFF]
          | .fault k => [6, 0xFF, 0xFF, byteOf ([ZoneFault.intrusion, .sensorMissed, .sensorStuck, .overdue,
              .holdFailed].idxOf k + 1), 0xFF]
          | .handed p => [7, 0xFF, 0xFF, 0xFF, byteOf p.val]) ++
        (match r.brake with
          | none => [0xFF, 0xFF, 0xFF]
          | some b => (match b.hold with
            | .held => [1]
            | .released => [2]) ++ match b.supervision with
            | .confirmed => [1, 0xFF]
            | .awaiting n => 2 :: ms n
            | .disagree => [3, 0xFF]) ++
        [byteOf r.history.length] ++ r.history.map flag ++ [level (.entry z)] ++
        if l.kind = .run then [0xFF, 0xFF] else [level (.stop z), level (.feedback z)]) ∧
   (∀ (e : Env) (w : Track) (n : SwitchId) (l : SwitchLayout) (r : Switch),
      let level := fun i => flag (inputActive e.layout e.inputs i)
      let held := lockingTrains e w n
      switchData e w n l r = (match l.kind with
          | .diverge => [1]
          | .merge => [2]) ++
        [byteOf l.root.val, byteOf l.straight.val, byteOf l.diverge.val] ++
        (match r.state with
          | .settled q => [place q, 0xFF, byteOf r.attempts, 0xFF, 0xFF]
          | .moving q n v => [3, place q, byteOf r.attempts] ++ ms n ++ (match v with
            | .claim k => [1, k]
            | .port p => [2, byteOf p.val]
            | .none => [0, 0xFF])
          | .unknown => [4, 0xFF, byteOf r.attempts, 0xFF, 0xFF]
          | .failed => [5, 0xFF, byteOf r.attempts, 0xFF, 0xFF]) ++
        [port r.sectionPort, flag r.driveStraight, flag r.driveDiverge, (if held = [] then 0 else 1), byteOf held.length] ++
        held.map (fun t => byteOf t.val) ++ [level (.position n .straight), level (.position n .diverge)] ∧
      held.Pairwise (fun t u => t < u) ∧ ∀ t : TrainId, t ∈ held ↔ e.layout.lockedBy n (w.trains[t])) ∧
   (∀ q : Requirement, requirementBytes q = [place q.position, byteOf q.switch.val]) ∧
   (∀ o : Origin, originBytes o = match o with
      | .auto => [1, 0xFF]
      | .dispatch p => [2, byteOf p.val]
      | .move p => [3, byteOf p.val]) ∧
   (∀ f : Frame, frameBytes f = [byteOf f.start.val, byteOf f.endStep.val] ++ (match f.kind with
      | .counted n => [1, byteOf (n / 2 ^ 8), byteOf n]
      | .forever => [2, 0xFF, 0xFF]) ++ [byteOf (f.lap / 2 ^ 8), byteOf f.lap, flag f.broken]) ∧
   (∀ g : LegEntry, legEntryBytes g = [byteOf g.zones.length] ++ g.zones.map (fun z => byteOf z.val) ++
      [flag g.started, byteOf g.reqs.length] ++ g.reqs.flatMap requirementBytes ++ [byteOf g.target.val] ++
      originBytes g.origin) ∧
   (∀ d : Decision, decisionBytes d = [byteOf d.target.val, byteOf d.ops.length] ++ d.ops.flatMap fun o => match o with
      | .lapUp => [1]
      | .countDown => [2]
      | .pop => [3]
      | .push f => 4 :: frameBytes f) ∧
   (∀ r : Train, trainParts r =
      [.field [byteOf ([TrainState.absent, .stored, .standing, .claiming, .cleared, .running, .halted, .manual,
         .lost].idxOf r.state + 1)],
       .list (r.footprint.map fun z => [byteOf z.val]), .list (r.authority.map legEntryBytes)] ++
      (match r.ride with
        | none => List.replicate 5 (.field [0xFF])
        | some d => [.field [byteOf d.route.val], .field [byteOf d.cursor.val], .list (d.frames.map frameBytes),
            .field [if r.state = .lost then 0xFF else flag d.stalled], .field [flag d.atEnd]]) ++
      [.field [if r.state = .absent then 0xFF else byteOf r.tag], .field [port r.sectionPort], .field (time r.dwell),
       .field (time r.departure), .field (time r.travel)]) ∧
   (∀ (l : Layout) (c : Claim) (a : Bool), claimParts l c a = [.field [c.seq]] ++
      (match c.body with
        | .leg g => [.field [1], .field [byteOf g.train.val], .field (originBytes g.origin),
            .list (g.zones.map fun z => [byteOf z.val]), .field [byteOf g.start.val],
            .list (g.reqs.map requirementBytes), .field [0xFF], .field (decisionBytes g.decision)]
        | .sectionOf g => [.field [2], .field [byteOf g.port.val], .field [0xFF],
            .list (g.zones.map fun z => [byteOf z.val]), .field [0xFF], .field [0xFF],
            .list (g.switches.map fun n => [byteOf n.val]), .field [0xFF]]) ++
      [.field [if c.state = .waiting then 1 else 2], .field [if a then 1 else 2],
       (match c.state with
         | .waiting => .field [0xFF]
         | .setting ns => .list (ns.map fun n => [byteOf n.val])),
       .field (time c.wait), .field [byteOf c.bypass],
       .field [if a = true ∧ c.state = .waiting ∧ l.bypassLimit ≠ 0 ∧ l.bypassLimit ≤ c.bypass then 1 else 0]]) ∧
   (∀ x : RouteState, routeStateData x = match x with
      | .empty => [0, 0xFF, 0xFF]
      | .draft => [1, 0xFF, 0xFF]
      | .sealed n wide => [2, byteOf n, flag wide]) ∧
   (∀ (r : RouteId) (k : StepId) (x : Option RouteStep), stepData r k x = match x with
      | none => [0, byteOf r.val, byteOf k.val, 0xFF, 0, 0xFF, 0, 0xFF, 0xFF]
      | some y => [1, byteOf r.val, byteOf k.val, byteOf y.zone.val] ++ (match y.action with
          | .pass => [1, 0xFF]
          | .hold d => [2, byteOf d]
          | .dispatch => [3, 0xFF]
          | .park => [4, 0xFF]) ++ match y.opener with
          | none => [0, 0xFF, 0xFF]
          | some o => (match o.kind with
            | .counted n => [1, byteOf n]
            | .forever => [2, 0xFF]) ++ [byteOf o.endStep.val])) ∧
  ∀ (skip : Nat) (parts : List Part), let n := itemCount parts
    (∀ es, .list es ∈ parts → [] ∉ es) → ∃ b, min skip n ≤ b ∧ b ≤ n ∧
      let body := carriedBytes skip b 0 parts
      let ends := List.replicate (emptyEnd parts) (0 : Byte)
      body.length ≤ 27 ∧ (b < n → 27 < (carriedBytes skip (b + 1) 0 parts).length) ∧
      packReply skip parts = byteOf (n - b) :: (body ++
        if b = n ∧ skip ≤ n ∧ (body ++ ends).length ≤ 27 then ends else [])

/-- A lapse (R124, R147, R176; the notices' cause codes are the model's reading, log 12), by FORCE_LAPSE or by LEASE_EXPIRY: a
port already LAPSED does not lapse again; else it becomes LAPSED, its queued commands are marked, its DISPATCH and then its
MOVE claims are withdrawn with the cause LAPSE, its SECTION claim is withdrawn or its section revoked, LEASE_LAPSED is posted,
and for CP0 SUPERVISOR_LAPSED is raised. A revocation: the section's zones UNKNOWN, its MANUAL trains LOST, its switches out
of it with their moves abandoned. An expiry takes effect while the lease runs (log 4). -/
def Obligations.Lapse : Prop :=
  (∀ (s : State) (p q : PortId) (n : Nat),
     let u := fun c : LapseCause => if (s.ports[q]).lapsed then s else
       (s.modifyPort q fun r =>
         { r with lapsed := true, lapseSeen := true, leaseRemaining := none
                  commands := r.commands.map fun x => { x with preLapse := true } }).run fun e w =>
         let v := (lapseSection e q (lapseClaims q w)).post [0] .leaseLapsed (.port q) (match c with
           | .expiry => 1
           | .forced => 2)
         closeEvent e (if q = 0 then raiseHalt e .supervisorLapsed (.port q) 0xFF 0xFF v else v)
     (s.idlePort p → p ≠ 0 → refusesWith (.forceLapse p n) p 0x23 .role s) ∧
     (s.idlePort p → p = 0 → n = 0 ∨ 4 ≤ n → refusesWith (.forceLapse p n) p 0x23 .argument s) ∧
     (s.idlePort p → p = 0 → q ≠ 0 → n = q.val →
       exec (.forceLapse p n) s = .next (replied p 0x23 (.done []) (u .forced))) ∧
     ((s.ports[q]).leaseRemaining = none → exec (.leaseExpiry q) s = .next s) ∧
     ((s.ports[q]).leaseRemaining ≠ none → exec (.leaseExpiry q) s = .next (u .expiry))) ∧
  (∀ (p : PortId) (w : Work),
     let dispatches := (w.claims ++ w.line).filter fun c => match c.body with
       | .leg g => decide (g.origin = .dispatch p)
       | .sectionOf _ => false
     let moves := (w.claims ++ w.line).filter fun c => match c.body with
       | .leg g => decide (g.origin = .move p)
       | .sectionOf _ => false
     lapseClaims p w = moves.foldl (fun w c => match c.body with
         | .leg g => (withdrawClaim c w).post [0, p] .moveAborted (.train g.train) 3
         | .sectionOf _ => w)
       (dispatches.foldl (fun w c => match c.body with
         | .leg g => (withdrawClaim c w).post [0, p] .dispatchAborted (.train g.train) 3
         | .sectionOf _ => w) w)) ∧
  ∀ (e : Env) (p : PortId) (w : Work),
    (w.sections[p] = .none → lapseSection e p w = w) ∧
    (w.sections[p] = .claimed → lapseSection e p w =
      ((withdrawAll (fun c => c.isSectionOf p) w).setSection p .none).post [0, p] .sectionWithdrawn (.port p) 3) ∧
    ∀ h, w.sections[p] = .held h → let v := lapseSection e p w
      v.sections[p] = .none ∧
      (∀ z ∈ h.zones, w.zones[z] ≠ none → v.zoneState z = some .unknown) ∧
      (∀ z, z ∉ h.zones → v.zoneState z = w.zoneState z) ∧
      (∀ t : TrainId, (w.trains[t]).state = .manual → (w.trains[t]).sectionPort = some p →
        v.trains[t] = { w.trains[t] with
          state := .lost, footprint := [], authority := [], sectionPort := none, dwell := none, departure := none
          travel := none, ride := (w.trains[t]).ride.map fun d => { d with stalled := false } }) ∧
      (∀ n ∈ h.switches, ∀ r, w.switches[n] = some r → v.switches[n] = some (if r.isMoving then
        { state := (match e.positionRead n with
            | some q => .settled q
            | none => .unknown)
          attempts := 0, sectionPort := none, driveStraight := false, driveDiverge := false }
        else { r with sectionPort := none })) ∧
      (∀ n, n ∉ h.switches → v.switches[n] = w.switches[n]) ∧ v.claims = w.claims ∧ v.line = w.line ∧
      v.posts = w.posts ++ [
        { note := { name := .sectionRevoked, subject := .port p
                    detail1 := byteOf (trainIds.filter fun t =>
                      decide ((w.trains[t]).state = .manual) && decide ((w.trains[t]).sectionPort = some p)).length
                    detail2 := 0xFF }
          named := [0] }]

/-! ### Layout -/

/-- LOAD_ZONE (R2). -/
def Obligations.LoadZone : Prop :=
  ∀ (s : State) (p : PortId) (n : Nat) (f : Option ZoneFields), s.idlePort p →
    (p ≠ 0 → refusesWith (.loadZone p n f) p 0x10 .role s) ∧
    (p = 0 → s.layout.committed = true → refusesWith (.loadZone p n f) p 0x10 .locked s) ∧
    (s.loadable p → 32 ≤ n ∨ (∃ x, f = some x ∧ ¬ zoneAdmissible x) → refusesWith (.loadZone p n f) p 0x10 .argument s) ∧
    (∀ z : ZoneId, s.loadable p → n = z.val → f = none → exec (.loadZone p n f) s =
      .next (replied p 0x10 (.done []) { s with layout := { s.layout with zones := s.layout.zones.set z none } })) ∧
    ∀ (z : ZoneId) (x : ZoneFields), s.loadable p → n = z.val → f = some x → zoneAdmissible x →
      ∃ r, zoneStores x r ∧ exec (.loadZone p n f) s =
        .next (replied p 0x10 (.done []) { s with layout := { s.layout with zones := s.layout.zones.set z (some r) } })

/-- LOAD_SWITCH (R5), LOAD_PORT (R7; the role codes are the model's, log 9) and LOAD_GLOBALS (R8, Table 1-3). -/
def Obligations.LoadSwitchPortGlobals : Prop :=
  ((∀ (s : State) (p : PortId) (n : Nat) (f : Option SwitchFields), s.idlePort p →
      (p ≠ 0 → refusesWith (.loadSwitch p n f) p 0x11 .role s) ∧
      (p = 0 → s.layout.committed = true → refusesWith (.loadSwitch p n f) p 0x11 .locked s) ∧
      (s.loadable p → 4 ≤ n ∨ (∃ x, f = some x ∧ (32 ≤ x.root ∨ 32 ≤ x.straight ∨ 32 ≤ x.diverge ∨ x.moveLimit = 0 ∨
        256 ≤ x.moveLimit)) → refusesWith (.loadSwitch p n f) p 0x11 .argument s) ∧
      (∀ k : SwitchId, s.loadable p → n = k.val → f = none → exec (.loadSwitch p n f) s =
        .next (replied p 0x11 (.done []) { s with layout := { s.layout with switches := s.layout.switches.set k none } })) ∧
      ∀ (k : SwitchId) (x : SwitchFields) (a b c : ZoneId), s.loadable p → n = k.val → f = some x → x.root = a.val →
        x.straight = b.val → x.diverge = c.val → 1 ≤ x.moveLimit → x.moveLimit ≤ 255 →
        let y : SwitchLayout := { kind := x.kind, root := a, straight := b, diverge := c, moveLimit := x.moveLimit }
        exec (.loadSwitch p n f) s = .next (replied p 0x11 (.done [])
          { s with layout := { s.layout with switches := s.layout.switches.set k (some y) } })) ∧
   (∀ (s : State) (p : PortId) (n m : Nat), s.idlePort p →
      (p ≠ 0 → refusesWith (.loadPort p n m) p 0x12 .role s) ∧
      (p = 0 → s.layout.committed = true → refusesWith (.loadPort p n m) p 0x12 .locked s) ∧
      (s.loadable p → n = 0 ∨ 4 ≤ n ∨ m < 2 ∨ 5 ≤ m → refusesWith (.loadPort p n m) p 0x12 .argument s) ∧
      ∀ (q : PortId) (x : Role), s.loadable p → q ≠ 0 → n = q.val → x ≠ .supervisor → m = roleCode x →
        exec (.loadPort p n m) s =
          .next (replied p 0x12 (.done []) { s with layout := { s.layout with roles := s.layout.roles.set q x } }))) ∧
  (∀ (s : State) (p : PortId) (b c l : Nat), s.idlePort p →
     (p ≠ 0 → refusesWith (.loadGlobals p b c l) p 0x13 .role s) ∧
     (p = 0 → s.layout.committed = true → refusesWith (.loadGlobals p b c l) p 0x13 .locked s) ∧
     (s.loadable p → 8 ≤ b ∨ c = 0 ∨ 16 ≤ c ∨ 8 ≤ l → refusesWith (.loadGlobals p b c l) p 0x13 .argument s) ∧
     (s.loadable p → b ≤ 7 → 1 ≤ c → c ≤ 15 → l ≤ 7 → exec (.loadGlobals p b c l) s =
       .next (replied p 0x13 (.done [])
         { s with layout := { s.layout with bypassLimit := b, holdConfirm := c, lookBack := l } })))

/-- COMMIT (R9, R10, R13): ROLE, LOCKED, MODE in ESTOPPED, INVALID with the first failed check, else the layout is in service:
STANDBY, zone, tracker and switch records made afresh, the stored roles in force, and the MODE notice posted to every port
whose mask admits it and whose queue has room. UNCOMMIT (R15): its examination, and the layout out of service with its records
kept, with its MODE notice. -/
def Obligations.CommitAndUncommit : Prop :=
  (∀ (s : State) (p : PortId), s.idlePort p →
     let told := fun (q : PortId) (n : Note) =>
       if (s.ports[q]).mask.getLsbD 5 && decide ((s.ports[q]).notices.length < 8) then
         [{ note := n, time := BitVec.ofNat 32 s.time : Notice }] else []
     (p ≠ 0 → refusesWith (.commit p) p 0x14 .role s) ∧
     (p = 0 → s.layout.committed = true → refusesWith (.commit p) p 0x14 .locked s) ∧
     (s.loadable p → s.track.mode = .estopped → refusesWith (.commit p) p 0x14 .mode s) ∧
     (∀ n x, s.loadable p → s.track.mode ≠ .estopped → commitChecks s.layout = some (n, x) →
       exec (.commit p) s = .next (replied p 0x14 (.invalid n x) s)) ∧
     (s.loadable p → s.track.mode ≠ .estopped → commitChecks s.layout = none → ∃ t,
       exec (.commit p) s = .next (replied p 0x14 (.done []) t) ∧
       t.layout = { s.layout with committed := true, legs := legSet s.layout } ∧ t.routes = s.routes ∧ t.inputs = s.inputs ∧
       t.track.mode = .standby ∧ t.track.trains = s.track.trains ∧ t.track.claims = s.track.claims ∧
       t.track.sections = s.track.sections ∧ t.track.estopClear = s.track.estopClear ∧
       (∀ z : ZoneId, t.track.zones[z] = (s.layout.zones[z]).map fun r =>
         { state := .unknown, history := []
           brake := if r.kind = .run then none
             else some { hold := .held, supervision := .awaiting (s.layout.holdConfirm * 50) } }) ∧
       (∀ z : ZoneId, t.track.trackers[z] = (s.layout.zones[z]).map fun _ => freshTracker t.env z) ∧
       (∀ n : SwitchId, t.track.switches[n] = (s.layout.switches[n]).map fun _ => freshSwitch t.env n) ∧
       ∀ q : PortId, (t.ports[q]).role = s.layout.roles[q] ∧ (t.ports[q]).mask = (s.ports[q]).mask ∧
         (t.ports[q]).replies = (s.ports[q]).replies ∧
         (t.ports[q]).notices = (s.ports[q]).notices ++ told q
           { name := .mode, subject := .mode .standby, detail1 := byteOf (modeCode s.track.mode * 32 + 1), detail2 := 0xFF })) ∧
  (∀ (s : State) (p : PortId), s.idlePort p →
     let told := fun (q : PortId) (n : Note) =>
       if (s.ports[q]).mask.getLsbD 5 && decide ((s.ports[q]).notices.length < 8) then
         [{ note := n, time := BitVec.ofNat 32 s.time : Notice }] else []
     let busyTrain := ∃ t : TrainId, (s.track.trains[t]).state ≠ .absent
     let busySection := ∃ q : PortId, s.track.sections[q] ≠ .none
     let moving := ∃ (n : SwitchId) (r : Switch), s.track.switches[n] = some r ∧ r.isMoving = true
     (p ≠ 0 → refusesWith (.uncommit p) p 0x15 .role s) ∧
     (p = 0 → s.layout.committed = false ∨ s.track.mode ≠ .standby → refusesWith (.uncommit p) p 0x15 .mode s) ∧
     (s.orderable p → s.track.mode = .standby → busyTrain ∨ busySection → refusesWith (.uncommit p) p 0x15 .state s) ∧
     (s.orderable p → s.track.mode = .standby → ¬ busyTrain → ¬ busySection → moving →
       refusesWith (.uncommit p) p 0x15 .busy s) ∧
     (s.orderable p → s.track.mode = .standby → ¬ busyTrain → ¬ busySection → ¬ moving → ∃ t,
       exec (.uncommit p) s = .next (replied p 0x15 (.done []) t) ∧
       t.layout = { s.layout with committed := false, legs := [] } ∧
       (∀ r : RouteId, t.routes[r] = { state := .empty, slots := Vector.replicate 16 none }) ∧
       t.track.mode = .unconfigured ∧ t.track.trains = s.track.trains ∧ t.track.claims = s.track.claims ∧
       (∀ z : ZoneId, t.track.zones[z] = none ∧ t.track.trackers[z] = none) ∧ (∀ n : SwitchId, t.track.switches[n] = none) ∧
       (∀ z : ZoneId, t.track.holdLine z = false) ∧ (∀ n : SwitchId, t.track.driveLines n = (false, false)) ∧
       ∀ q : PortId, (t.ports[q]).role = (if q = 0 then .supervisor else .observer) ∧
         (t.ports[q]).notices = (s.ports[q]).notices ++ told q
           { name := .mode, subject := .mode .unconfigured, detail1 := byteOf (modeCode s.track.mode * 32 + 2)
             detail2 := 0xFF }))

/-- The seven checks of a commit (R10 to R12, Table 1-4): the first that fails, with the first candidate that fails it; the
cycle check reports the lowest zone that lies on one (log 29). The legs of a layout (R14): once the switches agree with the
exits they are exactly the paths of up to five zones along the exits from a stoppable zone to the next, each with its switch
requirements in passage order, none twice; once all checks pass no path is longer; legs from one zone part at a DIVERGE switch,
STRAIGHT before DIVERGE. The leg that joins two zones is the first from the one to the other. -/
def Obligations.LegsAndCommitChecks : Prop :=
  (∀ l : Layout,
     let checks := [check1 l, check2 l, check3 l, check4 l, check5 l, check6 l, check7 l]
     (commitChecks l = none ↔ ∀ c ∈ checks, c = none) ∧
     ∀ (k : Nat) (x : CheckSubject), commitChecks l = some (k + 1, x) ↔
       checks[k]? = some (some x) ∧ ∀ j, j < k → checks[j]? = some none) ∧
  (∀ l : Layout,
     let next := fun a b : ZoneId => ∃ r : ZoneLayout, l.zones[a] = some r ∧ (r.exit = .zone b ∨
       ∃ (n : SwitchId) (w : SwitchLayout), r.exit = .switch n ∧ l.switches[n] = some w ∧
         ((w.kind = .diverge ∧ (b = w.straight ∨ b = w.diverge)) ∨ (w.kind = .merge ∧ b = w.root)))
     let run := fun z : ZoneId => ∃ r, l.zones[z] = some r ∧ r.kind = .run
     let first := fun (c : Option CheckSubject) (bad : ZoneId → Prop) =>
       (c = none ↔ ∀ z, ¬ bad z) ∧ ∀ z, c = some (.zone z) ↔ bad z ∧ ∀ y, y < z → ¬ bad y
     let few := (zoneIds.filter fun z => decide (l.zones[z] ≠ none)).length < 2
     let badSwitch := fun n : SwitchId => ∃ w, l.switches[n] = some w ∧
       (l.zones[w.root] = none ∨ l.zones[w.straight] = none ∨ l.zones[w.diverge] = none ∨ w.root = w.straight ∨
         w.root = w.diverge ∨ w.straight = w.diverge ∨
         (w.kind = .diverge ∧ (l.zones[w.root]).map (·.exit) ≠ some (.switch n)) ∨
         (w.kind = .merge ∧ ((l.zones[w.straight]).map (·.exit) ≠ some (.switch n) ∨
           (l.zones[w.diverge]).map (·.exit) ≠ some (.switch n))))
     let entrances := fun z : ZoneId =>
       (zoneIds.filter fun y => decide (y ≠ z) && decide ((l.zones[y]).map (·.exit) = some (.zone z))).length +
       (switchIds.filter fun n => (l.switches[n]).any fun w => match w.kind with
         | .diverge => decide (w.straight = z) || decide (w.diverge = z)
         | .merge => decide (w.root = z)).length
     let badExit := fun z : ZoneId => ∃ r, l.zones[z] = some r ∧ ((∃ n : SwitchId, r.exit = .switch n ∧
       (l.switches[n] = none ∨ ∃ w, l.switches[n] = some w ∧
         ((w.kind = .diverge ∧ w.root ≠ z) ∨ (w.kind = .merge ∧ w.straight ≠ z ∧ w.diverge ≠ z)))) ∨ 2 ≤ entrances z)
     (few → check1 l = some .none) ∧
     (¬ few → first (check1 l) fun z => ∃ (r : ZoneLayout) (y : ZoneId), l.zones[z] = some r ∧ r.exit = .zone y ∧
       (l.zones[y] = none ∨ y = z)) ∧
     (∀ n, check2 l = some (.switch n) ↔ badSwitch n ∧ ∀ m, m < n → ¬ badSwitch m) ∧
     ((∀ n, ¬ badSwitch n) → first (check2 l) badExit) ∧
     (first (check3 l) fun z => ∃ a b c d : ZoneId, [z, a, b, c, d].Nodup ∧ (∀ y ∈ [z, a, b, c, d], run y) ∧ next z a ∧
       next a b ∧ next b c ∧ next c d) ∧
     (first (check4 l) fun z => run z ∧ (next z z ∨ ∃ a, run a ∧ next z a ∧ (next a z ∨ ∃ b, run b ∧ next a b ∧
       (next b z ∨ ∃ c, run c ∧ next b c ∧ (next c z ∨ ∃ d, run d ∧ next c d ∧ next d z))))) ∧
     (first (check5 l) fun z => ∃ (r : ZoneLayout) (i : ReadyId), l.zones[z] = some r ∧ r.kind = .station ∧
       r.ready = some i ∧ ∃ (y : ZoneId) (q : ZoneLayout), y < z ∧ l.zones[y] = some q ∧ q.kind = .station ∧
         q.ready = some i) ∧
     (first (check6 l) fun z => ∃ (r : ZoneLayout) (p : PortId), l.zones[z] = some r ∧ r.owner = some p ∧
       l.roles[p] ≠ (if r.kind = .station then .station else .transfer)) ∧
     let owns := fun (p : PortId) (station : Prop) => ∃ (z : ZoneId) (r : ZoneLayout), l.zones[z] = some r ∧
       r.owner = some p ∧ (station → r.kind = .station)
     let badRole := fun p : PortId => p ≠ 0 ∧
       ((l.roles[p] = .station ∧ ¬ owns p True) ∨ (l.roles[p] = .transfer ∧ ¬ owns p False))
     (check7 l = none ↔ ∀ p, ¬ badRole p) ∧ ∀ p, check7 l = some (.port p) ↔ badRole p ∧ ∀ q, q < p → ¬ badRole q) ∧
  (∀ (l : Layout) (g : Leg), g ∈ legSet l →
    l.stoppableZone g.start ∧ 1 ≤ g.zones.length ∧ g.zones.length ≤ 5 ∧
    (∀ z, g.zones.getLast? = some z → l.stoppableZone z) ∧
    ∀ z ∈ g.zones.dropLast, ∃ r, l.zones[z] = some r ∧ r.kind = .run) ∧
  (∀ l : Layout, check2 l = none →
    (∀ g : Leg, g ∈ legSet l ↔ ∃ xs, xs.length ≤ 5 ∧ l.legPath g.start xs ∧ g.zones = xs.map (·.1) ∧
      g.reqs = xs.filterMap (·.2)) ∧
    (check3 l = none → check4 l = none → ∀ a xs, l.legPath a xs → xs.length ≤ 5)) ∧
  (∀ l : Layout, (legSet l).Pairwise fun g h => g.start = h.start → ∃ (n : SwitchId) (qs rs ts : List Requirement),
    g.reqs = qs ++ { switch := n, position := .straight } :: rs ∧
    h.reqs = qs ++ { switch := n, position := .diverge } :: ts) ∧
  ∀ (l : Layout) (a b : ZoneId), let joins := fun g : Leg => g.start = a ∧ g.zones.getLast? = some b
    (legBetween l a b = none ↔ ∀ g ∈ l.legs, ¬ joins g) ∧
    ∀ g, legBetween l a b = some g ↔ joins g ∧ ∃ xs ys, l.legs = xs ++ g :: ys ∧ ∀ x ∈ xs, ¬ joins x

/-! ### Routes -/

/-- LOAD_STEP (R78, R180): the opener is examined with every action, zone and dwell with an action other than NONE
(log 11). -/
def Obligations.LoadStep : Prop :=
  ∀ (s : State) (p : PortId) (n m : Nat) (f : StepFields), s.idlePort p →
    (p ≠ 0 → refusesWith (.loadStep p n m f) p 0x18 .role s) ∧
    (p = 0 → s.layout.committed = false → refusesWith (.loadStep p n m f) p 0x18 .mode s) ∧
    (s.orderable p → 8 ≤ n ∨ 16 ≤ m → refusesWith (.loadStep p n m f) p 0x18 .argument s) ∧
    ∀ (r : RouteId) (k : StepId), s.orderable p → n = r.val → m = k.val →
      (¬ stepAdmissible s.layout k f → refusesWith (.loadStep p n m f) p 0x18 .argument s) ∧
      (stepAdmissible s.layout k f → s.track.routeInUse r → refusesWith (.loadStep p n m f) p 0x18 .busy s) ∧
      (f.action ≠ none → stepAdmissible s.layout k f → ¬ s.track.routeInUse r → ∃ y, stepStores f y ∧
        exec (.loadStep p n m f) s = .next (replied p 0x18 (.done []) (s.setRoute r
          { state := .draft, slots := (s.routes[r]).slots.set k (some y) }))) ∧
      (f.action = none → stepAdmissible s.layout k f → ¬ s.track.routeInUse r →
        (∃ j : StepId, j ≠ k ∧ (s.routes[r]).slots[j] ≠ none) →
        exec (.loadStep p n m f) s = .next (replied p 0x18 (.done []) (s.setRoute r
          { state := .draft, slots := (s.routes[r]).slots.set k none }))) ∧
      (f.action = none → stepAdmissible s.layout k f → ¬ s.track.routeInUse r →
        (∀ j : StepId, j ≠ k → (s.routes[r]).slots[j] = none) →
        exec (.loadStep p n m f) s = .next (replied p 0x18 (.done []) (s.setRoute r
          { state := .empty, slots := (s.routes[r]).slots.set k none })))

/-- CLEAR_ROUTE (R79). -/
def Obligations.ClearRoute : Prop :=
  ∀ (s : State) (p : PortId) (n : Nat), s.idlePort p →
    (p ≠ 0 → refusesWith (.clearRoute p n) p 0x1A .role s) ∧
    (p = 0 → s.layout.committed = false → refusesWith (.clearRoute p n) p 0x1A .mode s) ∧
    (s.orderable p → 8 ≤ n → refusesWith (.clearRoute p n) p 0x1A .argument s) ∧
    (∀ r : RouteId, s.orderable p → n = r.val → s.track.routeInUse r → refusesWith (.clearRoute p n) p 0x1A .busy s) ∧
    ∀ r : RouteId, s.orderable p → n = r.val → ¬ s.track.routeInUse r → exec (.clearRoute p n) s =
      .next (replied p 0x1A (.done []) (s.setRoute r
        { state := .empty, slots := Vector.replicate 16 none }))

/-- SEAL_ROUTE (R80). -/
def Obligations.SealRoute : Prop :=
  ∀ (s : State) (p : PortId) (n count : Nat) (wide : Bool), s.idlePort p →
    (p ≠ 0 → refusesWith (.sealRoute p n count wide) p 0x19 .role s) ∧
    (p = 0 → s.layout.committed = false → refusesWith (.sealRoute p n count wide) p 0x19 .mode s) ∧
    (s.orderable p → 8 ≤ n ∨ count = 0 ∨ 17 ≤ count → refusesWith (.sealRoute p n count wide) p 0x19 .argument s) ∧
    ∀ r : RouteId, s.orderable p → n = r.val → 1 ≤ count → count ≤ 16 →
      (s.track.routeInUse r → refusesWith (.sealRoute p n count wide) p 0x19 .busy s) ∧
      (¬ s.track.routeInUse r → (s.routes[r]).state ≠ .draft → refusesWith (.sealRoute p n count wide) p 0x19 .state s) ∧
      (∀ k x, ¬ s.track.routeInUse r → (s.routes[r]).state = .draft →
        sealChecks s.layout (s.routes[r]) count wide = some (k, x) →
        exec (.sealRoute p n count wide) s = .next (replied p 0x19 (.invalid k x) s)) ∧
      (¬ s.track.routeInUse r → (s.routes[r]).state = .draft → sealChecks s.layout (s.routes[r]) count wide = none →
        exec (.sealRoute p n count wide) s = .next (replied p 0x19 (.done []) (s.setRoute r
          { state := .sealed count wide, slots := (s.routes[r]).slots })))

/-- The eight checks of a seal (R80 to R82, Table 5-3): the first that fails, with the lowest step at which it fails. -/
def Obligations.SealChecks : Prop :=
  ∀ (l : Layout) (r : Route) (n : Nat) (wide : Bool),
    let checks := [sealCheck1 r n, sealCheck2 r n, sealCheck3 r, sealCheck4 r, sealCheck5 l r n wide, sealCheck6 l r wide,
      sealCheck7 l r, sealCheck8 l r]
    let first := fun (c : Option StepId) (bad : StepId → Prop) =>
      (c = none ↔ ∀ k, ¬ bad k) ∧ ∀ k, c = some k ↔ bad k ∧ ∀ j, j < k → ¬ bad j
    let opens := fun (k : StepId) (o : Opener) => ∃ x, r.slots[k] = some x ∧ x.opener = some o
    let zone := fun (k : StepId) (z : ZoneId) => ∃ x, r.slots[k] = some x ∧ x.zone = z
    let noLeg := fun (a b : StepId) => ∀ y z, zone a y → zone b z →
      y = z ∨ ∀ g ∈ l.legs, g.start = y → g.zones.getLast? ≠ some z
    let gap := ∃ k : StepId, k.val < n ∧ r.slots[k] = none
    (sealChecks l r n wide = none ↔ ∀ c ∈ checks, c = none) ∧
    (∀ (k : Nat) (x : CheckSubject), sealChecks l r n wide = some (k + 1, x) ↔
      ∃ j, x = .step j ∧ checks[k]? = some (some j) ∧ ∀ i, i < k → checks[i]? = some none) ∧
    (gap → first (sealCheck1 r n) fun k => k.val < n ∧ r.slots[k] = none) ∧
    (¬ gap → first (sealCheck1 r n) fun k => n ≤ k.val ∧ r.slots[k] ≠ none) ∧
    (first (sealCheck2 r n) fun k => ∃ o, opens k o ∧ n ≤ o.endStep.val) ∧
    (first (sealCheck3 r) fun k => ∃ (o : Opener) (j : StepId) (q : Opener), opens k o ∧ opens j q ∧ j < k ∧ k ≤ q.endStep ∧
      q.endStep ≤ o.endStep) ∧
    (first (sealCheck4 r) fun k => 4 < (stepIds.filter fun j => ((r.slots[j]).bind (·.opener)).any fun o =>
      decide (j ≤ k) && decide (k ≤ o.endStep)).length) ∧
    (first (sealCheck5 l r n wide) fun i => i.val < n ∧
      ∃ j fs, forwardTo r n wide 17 (i.val + 1) = some (j, fs) ∧ noLeg i j) ∧
    (first (sealCheck6 l r wide) fun k => ∃ o, opens k o ∧
      (o.kind = .forever ∨ (∃ c, o.kind = .counted c ∧ 2 ≤ c) ∨ (o.kind = .counted 0 ∧ wide = true)) ∧
      noLeg o.endStep k) ∧
    (first (sealCheck7 l r) fun k => ∃ x, r.slots[k] = some x ∧ x.action = .dispatch ∧
      ∀ y, l.zones[x.zone] = some y → y.kind ≠ .station ∨ y.owner = none) ∧
    (first (sealCheck8 l r) fun k => ∃ x, r.slots[k] = some x ∧ x.action = .park ∧
      ∀ y p, l.zones[x.zone] = some y → y.owner = some p → l.roles[p] ≠ .transfer)

/-- The next step (R87): end processing of the innermost frame at its end step, forward flow otherwise, with at most one frame
popped and the operations in order. Forward flow (R86, R89): no target at or past the step count; else the step reached, with
the frame its opener pushes, a COUNTED opener of count 0 being skipped without WIDE and taken as 256 with it. The operations
of a decision on a frame stack, innermost frame last (R90): the lap count rises to at most 65535. The stack of a train placed
or assigned at a step (R86): the step's opener as at a forward arrival, none pushed where the frame is skipped. -/
def Obligations.NextStepSelection : Prop :=
  (∀ (r : Route) (n : Nat) (wide : Bool) (i : StepId) (fs : List Frame), r.state = .sealed n wide →
     (fs = [] → selectStep r i fs = arriveForward r n wide (i.val + 1) []) ∧
     ∀ (gs : List Frame) (f : Frame), fs = gs ++ [f] →
       (f.endStep ≠ i → selectStep r i fs = arriveForward r n wide (i.val + 1) []) ∧
       (f.endStep = i → f.kind = .forever → f.broken = false →
         selectStep r i fs = some { target := f.start, ops := [.lapUp] }) ∧
       (f.endStep = i → f.kind = .forever → f.broken = true →
         selectStep r i fs = arriveForward r n wide (i.val + 1) [.lapUp, .pop]) ∧
       (∀ k : Nat, f.endStep = i → f.kind = .counted k → 1 < k → f.broken = false →
         selectStep r i fs = some { target := f.start, ops := [.lapUp, .countDown] }) ∧
       (∀ k : Nat, f.endStep = i → f.kind = .counted k → k ≤ 1 ∨ f.broken = true →
         selectStep r i fs = arriveForward r n wide (i.val + 1) [.lapUp, .pop])) ∧
  (∀ (r : Route) (n : Nat) (wide : Bool) (fuel : Nat),
     (∀ j : Nat, n ≤ j → forwardTo r n wide (fuel + 1) j = none) ∧
     (∀ j : StepId, j.val < n → (r.slots[j]).bind (·.opener) = none → forwardTo r n wide (fuel + 1) j.val = some (j, [])) ∧
     ∀ (j : StepId) (o : Opener), j.val < n → (r.slots[j]).bind (·.opener) = some o →
       (o.kind = .forever → forwardTo r n wide (fuel + 1) j.val =
         some (j, [.push { start := j, endStep := o.endStep, kind := .forever, lap := 0, broken := false }])) ∧
       (∀ k : Nat, o.kind = .counted k → k ≠ 0 → forwardTo r n wide (fuel + 1) j.val =
         some (j, [.push { start := j, endStep := o.endStep, kind := .counted k, lap := 0, broken := false }])) ∧
       (o.kind = .counted 0 → wide = true → forwardTo r n wide (fuel + 1) j.val =
         some (j, [.push { start := j, endStep := o.endStep, kind := .counted 256, lap := 0, broken := false }])) ∧
       (o.kind = .counted 0 → wide = false → forwardTo r n wide (fuel + 1) j.val =
         forwardTo r n wide fuel (o.endStep.val + 1))) ∧
  (∀ (r : Route) (n : Nat) (wide : Bool) (j : Nat) (ops : List FrameOp), arriveForward r n wide j ops =
     (forwardTo r n wide 17 j).map fun q => { target := q.1, ops := ops ++ q.2 }) ∧
  (∀ (fs : List Frame) (f : Frame) (op : FrameOp) (ops : List FrameOp),
     applyFrameOps fs [] = fs ∧ applyFrameOps fs (op :: ops) = applyFrameOps (applyFrameOp fs op) ops ∧
     applyFrameOp (fs ++ [f]) .lapUp = fs ++ [{ f with lap := if f.lap < 65535 then f.lap + 1 else 65535 }] ∧
     (∀ k, f.kind = .counted k → applyFrameOp (fs ++ [f]) .countDown = fs ++ [{ f with kind := .counted (k - 1) }]) ∧
     applyFrameOp (fs ++ [f]) .pop = fs ∧ applyFrameOp fs (.push f) = fs ++ [f]) ∧
  (∀ (r : Route) (n : Nat) (wide : Bool) (k : StepId), r.state = .sealed n wide →
     ((r.slots[k]).bind (·.opener) = none → placedFrames r k = []) ∧
     ∀ o, (r.slots[k]).bind (·.opener) = some o →
       let f := fun x : FrameKind => { start := k, endStep := o.endStep, kind := x, lap := 0, broken := false : Frame }
       (o.kind = .forever → placedFrames r k = [f .forever]) ∧
       (∀ c, o.kind = .counted c → c ≠ 0 → placedFrames r k = [f (.counted c)]) ∧
       (o.kind = .counted 0 → placedFrames r k = if wide then [f (.counted 256)] else []))

/-! ### The mode -/

/-- SET_MODE (R159 to R163; the target is a place in Table 10-1 by R179, log 9): the examination, and the change of mode with
resume, with the withdrawal of LEG claims, or with the ride halt. -/
def Obligations.SetMode : Prop :=
  ∀ (s : State) (p : PortId) (n : Nat), s.idlePort p →
    let free := s.track.mode ≠ .unconfigured ∧ s.track.mode ≠ .estopped
    let unfit := (∃ z k, s.track.zoneState z = some (.fault k)) ∨ ∃ t : TrainId, (s.track.trains[t]).state = .halted
    let moving := s.track.mode = .operating ∧
      ((∃ t : TrainId, (s.track.trains[t]).state = .running ∨ (s.track.trains[t]).state = .cleared) ∨
        ∃ c ∈ s.track.claims, c.isWaiting = false)
    (p ≠ 0 → refusesWith (.setMode p n) p 0x20 .role s) ∧
    (p = 0 → n < 2 ∨ 5 ≤ n → refusesWith (.setMode p n) p 0x20 .argument s) ∧
    (p = 0 → 2 ≤ n → n ≤ 4 → ¬ free → refusesWith (.setMode p n) p 0x20 .mode s) ∧
    (p = 0 → (s.track.mode = .standby ∧ n = 2) ∨ (s.track.mode = .operating ∧ n = 3) ∨ (s.track.mode = .halted ∧ n = 4) →
      exec (.setMode p n) s = .next (replied p 0x20 (.done []) s)) ∧
    (p = 0 → n = 3 → free → s.track.mode ≠ .operating → unfit → refusesWith (.setMode p n) p 0x20 .state s) ∧
    (p = 0 → n = 3 → free → s.track.mode ≠ .operating → ¬ unfit → ∃ t,
      exec (.setMode p n) s = .next (replied p 0x20 (.done []) t) ∧ t.track.mode = .operating ∧
      t = s.run fun e w => closeEvent e (resume e (postMode w.mode .setMode { w with mode := .operating }))) ∧
    (p = 0 → n = 2 → free → s.track.mode ≠ .standby → moving → refusesWith (.setMode p n) p 0x20 .state s) ∧
    (p = 0 → n = 2 → free → s.track.mode ≠ .standby → ¬ moving → ∃ t,
      exec (.setMode p n) s = .next (replied p 0x20 (.done []) t) ∧ t.track.mode = .standby ∧
      t = s.run fun e w => closeEvent e (postMode w.mode .setMode
        (applyRelease e (w.allClaims.foldl (fun w c => standbyClaim c w) { w with mode := .standby })))) ∧
    (p = 0 → n = 4 → s.track.mode = .operating → ∃ t,
      exec (.setMode p n) s = .next (replied p 0x20 (.done []) t) ∧ t.track.mode = .halted ∧
      t = s.run fun e w => closeEvent e (postMode w.mode .setMode (rideHalt e .halted w))) ∧
    (p = 0 → n = 4 → s.track.mode = .standby → ∃ t,
      exec (.setMode p n) s = .next (replied p 0x20 (.done []) t) ∧ t.track.mode = .halted ∧
      t = s.run fun e w => closeEvent e (postMode w.mode .setMode (applyRelease e { w with mode := .halted })))

/-- Resume (R160), in ascending train number: the STANDING trains without a claim, not stalled and not at the route's end,
form a claim at a PASS step and start their dwell afresh at a HOLD step; every other train is left as it is. The withdrawal of
one claim on entry into STANDBY (R162; the cause code is the model's reading, log 12). -/
def Obligations.ResumeAndStandby : Prop :=
  (∀ (e : Env) (w : Work), resume e w = trainIds.foldl (fun w t => resumeTrain e t w) w) ∧
  (∀ (e : Env) (t : TrainId) (w : Work), let r := w.trains[t]
     let may := r.state = .standing ∧ (∀ c ∈ w.claims ++ w.line, c.isLegOf t = false) ∧ r.stalled = false ∧ r.atEnd = false
     (may → e.cursorAction r = some .pass → resumeTrain e t w = formAtRest e t .auto none w) ∧
     (∀ d, may → e.cursorAction r = some (.hold d) → d ≠ 0 →
       resumeTrain e t w = w.setTrain t { r with dwell := some (d * 100) }) ∧
     (may → e.cursorAction r = some (.hold 0) →
       resumeTrain e t w = formAtRest e t .auto none (w.setTrain t { r with dwell := none })) ∧
     (¬ may ∨ (e.cursorAction r ≠ some .pass ∧ ∀ d, e.cursorAction r ≠ some (.hold d)) → resumeTrain e t w = w)) ∧
  ∀ (c : Claim) (w : Work),
    (∀ g p, c.body = .leg g → g.origin = .dispatch p →
      standbyClaim c w = (withdrawClaim c w).post [0, p] .dispatchAborted (.train g.train) 5) ∧
    (∀ g p, c.body = .leg g → g.origin = .move p →
      standbyClaim c w = (withdrawClaim c w).post [0, p] .moveAborted (.train g.train) 5) ∧
    (∀ g, c.body = .leg g → g.origin = .auto → standbyClaim c w = withdrawClaim c w) ∧
    ∀ g, c.body = .sectionOf g → standbyClaim c w = w

/-- The ESTOP lines (R149, R156 to R158; a level the controller has already been told is no change, log 5): a line that
becomes active enters ESTOPPED from every other mode, or stops the clear time; the second line's change to inactive starts it
at 500 ms. The end of the clear time: HALTED where the layout is committed, UNCONFIGURED where it is not, with the MODE notice
of cause ESTOP_CLEAR; nothing where no clear time runs (log 4). The ride halt (R151, R152): the mode it enters, no train
RUNNING, and every hold that a train had opened HELD; its steps in their order: every SETTING claim back to WAITING without its
leg entry, every train at rest without its leg entries and without claims from elsewhere, a CLEARED one STANDING and not stalled
with its dispatch or move aborted with the cause HALT (its code is the model's reading, log 12), every RUNNING train HALTED, and
the release rule. The entry into ESTOPPED (R134, R157): the ride halt, every move abandoned with SWITCH_ABANDONED (ascending
switch number, log 15), every hold request HELD, the release rule, and the MODE notice with the lines active (R150, R178); with
the layout uncommitted the mode and the notice alone. -/
def Obligations.EmergencyStopAndRideHalt : Prop :=
  ((∀ (s : State) (k : EstopId) (a : Bool), let u := s.setInput (.estop k) a
      (inputSeen s.layout s.inputs (.estop k) = a → exec (.estopLineChange k a) s = .next u) ∧
      (inputSeen s.layout s.inputs (.estop k) = false → a = true → s.track.mode = .estopped →
        exec (.estopLineChange k a) s = .next { u with track := { s.track with estopClear := none } }) ∧
      (inputSeen s.layout s.inputs (.estop k) = false → a = true → s.track.mode ≠ .estopped → ∃ t,
        exec (.estopLineChange k a) s = .next t ∧ t.track.mode = .estopped ∧
        (∀ z : ZoneId, t.track.hold z ≠ some .released) ∧
        t = u.run fun e w => closeEvent e (enterEstopped e (inputSeen u.layout u.inputs (.estop 0))
          (inputSeen u.layout u.inputs (.estop 1)) w)) ∧
      (inputSeen s.layout s.inputs (.estop k) = true → a = false → s.track.mode = .estopped →
        inputSeen s.layout s.inputs (.estop (1 - k)) = false →
        exec (.estopLineChange k a) s = .next { u with track := { s.track with estopClear := some 500 } }) ∧
      (inputSeen s.layout s.inputs (.estop k) = true → a = false →
        s.track.mode ≠ .estopped ∨ inputSeen s.layout s.inputs (.estop (1 - k)) = true →
        exec (.estopLineChange k a) s = .next u)) ∧
   (∀ s : State,
      (s.track.mode = .estopped → s.track.estopClear ≠ none → ∃ t, exec .estopClearExpiry s = .next t ∧
        t.track.mode = (if s.layout.committed then .halted else .unconfigured) ∧ t.track.estopClear = none ∧
        t = s.run fun e w => closeEvent e (postMode w.mode .estopClear
          { w with mode := if e.layout.committed then .halted else .unconfigured, estopClear := none })) ∧
      (s.track.mode ≠ .estopped ∨ s.track.estopClear = none → exec .estopClearExpiry s = .next s))) ∧
  (∀ (e : Env) (m : Mode) (w : Work), m = .halted ∨ m = .estopped →
     (rideHalt e m w).mode = m ∧
     (∀ t : TrainId, ((rideHalt e m w).trains[t]).state ≠ .running) ∧
     (∀ t : TrainId, (w.trains[t]).state = .running →
       ((rideHalt e m w).trains[t]).state = .halted ∧ ((rideHalt e m w).trains[t]).footprint = (w.trains[t]).footprint) ∧
     (∀ z : ZoneId, (rideHalt e m w).hold z = some .released → m = .halted ∧ (rideHalt e m w).masterReleases z) ∧
     (∀ (t : TrainId) (z : ZoneId), ((rideHalt e m w).trains[t]).footprint = [z] →
       ((rideHalt e m w).trains[t]).state = .standing ∨ ((rideHalt e m w).trains[t]).state = .claiming ∨
         ((rideHalt e m w).trains[t]).state = .cleared → ((rideHalt e m w).trains[t]).authority = []) ∧
     (w.claims.length ≤ 12 → (∀ c ∈ w.line, c.state = .waiting) →
       ∀ c ∈ (rideHalt e m w).claims ++ (rideHalt e m w).line, c.state = .waiting)) ∧
  (∀ (e : Env) (m : Mode) (w : Work),
     let w1 := (w.claims.filter fun c => !c.isWaiting).foldl (fun v c =>
       if v.claims.any fun d => d.same c && !d.isWaiting then returnToWaiting c v else v) { w with mode := m }
     let w2 := trainIds.foldl (fun v t => haltResting t v) w1
     rideHalt e m w = applyRelease e { w2 with trains := w2.trains.map fun r =>
       if r.state = .running then { r with state := .halted } else r }) ∧
  (∀ (t : TrainId) (w : Work), let r := w.trains[t]
     let less := fun z => dropClaims (fun c => c.isLegOf t && !c.startsAt t z) (removeEntries t 0 w)
     let rests := fun z : ZoneId => r.footprint = [z] ∧ r.authority ≠ []
     (∀ z, rests z → r.state = .standing ∨ r.state = .claiming → haltResting t w = less z) ∧
     (∀ z g gs, rests z → r.state = .cleared → r.authority = g :: gs →
       let v := (less z).setTrain t { r with
         state := .standing, authority := [], departure := none
         ride := r.ride.map fun d => { d with stalled := false } }
       haltResting t w = match g.origin with
         | .dispatch p => v.post [0, p] .dispatchAborted (.train t) 4
         | .move p => v.post [0, p] .moveAborted (.train t) 4
         | .auto => v) ∧
     ((∀ z, ¬ rests z) ∨ (r.state ≠ .standing ∧ r.state ≠ .claiming ∧ r.state ≠ .cleared) → haltResting t w = w)) ∧
  ∀ (e : Env) (a b : Bool) (w : Work),
    let told := fun v : Work => v.post [0, 1, 2, 3] .mode (.mode .estopped) (byteOf (modeCode w.mode * 32 + 5))
      (if a then (if b then 3 else 1) else (if b then 2 else 0xFF))
    (e.layout.committed = false → enterEstopped e a b w = told { w with mode := .estopped }) ∧
    (e.layout.committed = true →
      let v := switchIds.foldl (fun v n =>
        if (v.switches[n]).any Switch.isMoving then
          (v.modifySwitch n fun x => { x with
            state := (match e.positionRead n with
              | some q => .settled q
              | none => .unknown)
            attempts := 0, driveStraight := false, driveDiverge := false }).post [0] .switchAbandoned (.switch n)
            (match e.positionRead n with
              | some .straight => 1
              | some .diverge => 2
              | none => 4)
        else v) (rideHalt e .estopped w)
      enterEstopped e a b w = told (applyRelease e { v with sections := v.sections.map fun x => match x with
        | .held h => .held { h with requests := h.requests.map fun q => (q.1, Hold.held) }
        | x => x }))

/-! ### Trains, zones and switches by order of the supervisor -/

/-- PLACE_TRAIN (R69): the examination, and the train in its zone, STORED or acting on its cursor step. -/
def Obligations.PlaceTrain : Prop :=
  ∀ (s : State) (p : PortId) (n m tag : Nat) (o : RouteOption), s.idlePort p →
    (p ≠ 0 → refusesWith (.placeTrain p n m tag o) p 0x28 .role s) ∧
    (p = 0 → s.layout.committed = false → refusesWith (.placeTrain p n m tag o) p 0x28 .mode s) ∧
    (s.orderable p → 8 ≤ n ∨ (∀ z : ZoneId, m = z.val → ¬ s.layout.stoppableZone z) ∨ (∃ r k, o = .at r k ∧ 8 ≤ r) →
      refusesWith (.placeTrain p n m tag o) p 0x28 .argument s) ∧
    ∀ (t : TrainId) (z : ZoneId), s.orderable p → n = t.val → m = z.val → s.layout.stoppableZone z →
      (∀ r k, o = .at r k → r < 8) →
      let x := s.track.trains[t]
      let fit := (x.state = .absent ∨ x.state = .lost) ∧
        (s.track.zoneState z = some .clear ∨ s.track.zoneState z = some .unknown ∨
          ∃ k, s.track.zoneState z = some (.fault k)) ∧
        (o = .keep → x.state ≠ .absent ∧ x.ride ≠ none) ∧
        ∀ (r : RouteId) (k : Nat), o = .at r.val k → ∃ c w, (s.routes[r]).state = .sealed c w
      let at_ := fun (r : TrainState) (d : Option Ride) (w : Work) => (w.setZone z (.occupied t)).setTrain t
        { state := r, footprint := [z], authority := [], ride := d, tag := tag, sectionPort := none, dwell := none
          departure := none, travel := none }
      (¬ fit → refusesWith (.placeTrain p n m tag o) p 0x28 .state s) ∧
      (fit → o = .none → exec (.placeTrain p n m tag o) s =
        .next (replied p 0x28 (.done []) (s.run fun e w => closeEvent e (at_ .stored none w)))) ∧
      (fit → o = .keep → (s.env.cursorStep x).map (·.zone) ≠ some z →
        refusesWith (.placeTrain p n m tag o) p 0x28 .argument s) ∧
      (fit → o = .keep → (s.env.cursorStep x).map (·.zone) = some z → exec (.placeTrain p n m tag o) s =
        .next (replied p 0x28 (.done []) (s.run fun e w =>
          closeEvent e (actOnStep e t (at_ .standing (x.ride.map fun d => { d with stalled := false }) w))))) ∧
      ∀ (r : RouteId) (k c : Nat) (wide : Bool), fit → o = .at r.val k → (s.routes[r]).state = .sealed c wide →
        ((∀ q : StepId, k = q.val → c ≤ k ∨ ((s.routes[r]).slots[q]).map (·.zone) ≠ some z) →
          refusesWith (.placeTrain p n m tag o) p 0x28 .argument s) ∧
        ∀ q : StepId, k = q.val → k < c → ((s.routes[r]).slots[q]).map (·.zone) = some z →
          exec (.placeTrain p n m tag o) s = .next (replied p 0x28 (.done []) (s.run fun e w =>
            closeEvent e (actOnStep e t (at_ .standing
              (some { route := r, cursor := q, frames := placedFrames s.routes[r] q, stalled := false, atEnd := false }) w))))

/-- ASSIGN_ROUTE (R70). RETIRE_TRAIN (R71; the codes of the disposition are the model's, log 9): STORE takes claims,
authority, route and dwell from a STANDING or CLAIMING train; REMOVE takes a STORED or LOST train off the table. -/
def Obligations.AssignAndRetire : Prop :=
  (∀ (s : State) (p : PortId) (n m k : Nat), s.idlePort p →
     (p ≠ 0 → refusesWith (.assignRoute p n m k) p 0x29 .role s) ∧
     (p = 0 → s.layout.committed = false → refusesWith (.assignRoute p n m k) p 0x29 .mode s) ∧
     (s.orderable p → 8 ≤ n ∨ 8 ≤ m → refusesWith (.assignRoute p n m k) p 0x29 .argument s) ∧
     ∀ (t : TrainId) (r : RouteId), s.orderable p → n = t.val → m = r.val →
       let x := s.track.trains[t]
       (x.state ≠ .stored ∨ (∀ c w, (s.routes[r]).state ≠ .sealed c w) → refusesWith (.assignRoute p n m k) p 0x29 .state s) ∧
       ∀ (c : Nat) (wide : Bool), x.state = .stored → (s.routes[r]).state = .sealed c wide →
         ((∀ q : StepId, k = q.val → c ≤ k ∨ ∀ z, x.footprint = [z] → ((s.routes[r]).slots[q]).map (·.zone) ≠ some z) →
           refusesWith (.assignRoute p n m k) p 0x29 .argument s) ∧
         ∀ (q : StepId) (z : ZoneId), k = q.val → k < c → x.footprint = [z] → ((s.routes[r]).slots[q]).map (·.zone) = some z →
           exec (.assignRoute p n m k) s = .next (replied p 0x29 (.done []) (s.run fun e w =>
             closeEvent e (actOnStep e t (w.modifyTrain t fun x => { x with
               state := .standing
               ride := some { route := r, cursor := q, frames := placedFrames s.routes[r] q, stalled := false
                              atEnd := false } }))))) ∧
  (∀ (s : State) (p : PortId) (n d : Nat), s.idlePort p →
     (p ≠ 0 → refusesWith (.retireTrain p n d) p 0x2A .role s) ∧
     (p = 0 → s.layout.committed = false → refusesWith (.retireTrain p n d) p 0x2A .mode s) ∧
     (s.orderable p → 8 ≤ n ∨ (d ≠ 1 ∧ d ≠ 2) → refusesWith (.retireTrain p n d) p 0x2A .argument s) ∧
     ∀ t : TrainId, s.orderable p → n = t.val → let x := (s.track.trains[t]).state
       (d = 1 → x ≠ .standing → x ≠ .claiming → refusesWith (.retireTrain p n d) p 0x2A .state s) ∧
       (d = 1 → x = .standing ∨ x = .claiming → exec (.retireTrain p n d) s =
         .next (replied p 0x2A (.done []) (s.run fun e w => closeEvent e (postAbort t (progressOrigin w.toTrack t) .retire
           ((removeEntries t 0 (withdrawAll (fun c => c.isLegOf t) w)).modifyTrain t fun r =>
             { r with state := .stored, authority := [], ride := none, dwell := none, departure := none, travel := none }))))) ∧
       (d = 2 → x ≠ .stored → x ≠ .lost → refusesWith (.retireTrain p n d) p 0x2A .state s) ∧
       (d = 2 → x = .stored ∨ x = .lost → exec (.retireTrain p n d) s =
         .next (replied p 0x2A (.done []) (s.run fun e w => closeEvent e
           (((match (w.trains[t]).footprint with
             | [z] => w.setZone z .unknown
             | _ => w)).setTrain t
             { state := .absent, footprint := [], authority := [], ride := none, tag := 0, sectionPort := none, dwell := none
               departure := none, travel := none })))))

/-- ASSERT_ZONE (R25; the code of EMPTY is the model's, log 9), and RESET_SWITCH (R132). A switch is locked (R127, R6) by a
train whose footprint holds a near-side zone and the far-side zone of one passage over it, or whose authority holds a far-side
zone. -/
def Obligations.SwitchAndZoneOrders : Prop :=
  ((∀ (s : State) (p : PortId) (n d : Nat), s.idlePort p →
      (p ≠ 0 → refusesWith (.assertZone p n d) p 0x2B .role s) ∧
      (p = 0 → s.layout.committed = false → refusesWith (.assertZone p n d) p 0x2B .mode s) ∧
      (s.orderable p → (∀ z : ZoneId, n = z.val → s.layout.zones[z] = none) ∨ d ≠ 1 →
        refusesWith (.assertZone p n d) p 0x2B .argument s) ∧
      ∀ z : ZoneId, s.orderable p → n = z.val → s.layout.zones[z] ≠ none → d = 1 →
        let fit := (s.track.zoneState z = some .unknown ∨ ∃ k, s.track.zoneState z = some (.fault k)) ∧
          ¬ (s.layout.stoppableZone z ∧ inputActive s.layout s.inputs (.stop z) = true) ∧
          (∀ q l g, s.track.trackers[z] ≠ some (.passing q l g)) ∧ ∀ g, s.track.trackers[z] ≠ some (.stuck g)
        (¬ fit → refusesWith (.assertZone p n d) p 0x2B .state s) ∧
        (fit → exec (.assertZone p n d) s =
          .next (replied p 0x2B (.done []) (s.run fun e w => closeEval e (w.setZone z .clear))))) ∧
   (∀ (s : State) (p : PortId) (n : Nat), s.idlePort p →
      (p ≠ 0 → refusesWith (.resetSwitch p n) p 0x2E .role s) ∧
      (p = 0 → s.layout.committed = false → refusesWith (.resetSwitch p n) p 0x2E .mode s) ∧
      (s.orderable p → (∀ k : SwitchId, n = k.val → s.track.switches[k] = none) →
        refusesWith (.resetSwitch p n) p 0x2E .argument s) ∧
      ∀ (k : SwitchId) (r : Switch), s.orderable p → n = k.val → s.track.switches[k] = some r →
        (r.isMoving = true → refusesWith (.resetSwitch p n) p 0x2E .busy s) ∧
        (r.isMoving = false → isLocked s.env s.track k = true ∨ r.sectionPort ≠ none →
          refusesWith (.resetSwitch p n) p 0x2E .state s) ∧
        (r.isMoving = false → isLocked s.env s.track k = false → r.sectionPort = none → exec (.resetSwitch p n) s =
          .next (replied p 0x2E (.done []) (s.run fun e w => closeEvent e (w.modifySwitch k fun x =>
            { x with
              state := (match e.positionRead k with
                | some q => .settled q
                | none => .unknown)
              attempts := 0, driveStraight := false, driveDiverge := false })))))) ∧
  (∀ (e : Env) (w : Track) (n : SwitchId),
     isLocked e w n = true ↔ ∃ t : TrainId, e.layout.lockedBy n (w.trains[t]))

/-- PROCEED (R72), and BREAK_LOOP (R91). -/
def Obligations.ProceedAndBreakLoop : Prop :=
  (∀ (s : State) (p : PortId) (n : Nat), s.idlePort p →
     (p ≠ 0 → refusesWith (.proceed p n) p 0x2C .role s) ∧
     (p = 0 → s.track.mode ≠ .operating → refusesWith (.proceed p n) p 0x2C .mode s) ∧
     (p = 0 → s.track.mode = .operating → 8 ≤ n → refusesWith (.proceed p n) p 0x2C .argument s) ∧
     ∀ t : TrainId, p = 0 → s.track.mode = .operating → n = t.val → let x := s.track.trains[t]
       let fit := x.state = .standing ∧ x.atEnd = false ∧ s.env.cursorAction x ≠ some .dispatch ∧
         s.env.cursorAction x ≠ some .park
       (¬ fit → refusesWith (.proceed p n) p 0x2C .state s) ∧
       (fit → exec (.proceed p n) s = .next (replied p 0x2C .accepted (s.run fun e w => closeEval e
         (formAtRest e t .auto none (w.modifyTrain t fun x =>
           { x with dwell := none, ride := x.ride.map fun d => { d with stalled := false } })))))) ∧
  (∀ (s : State) (p : PortId) (n : Nat), s.idlePort p →
     (p ≠ 0 → refusesWith (.breakLoop p n) p 0x2D .role s) ∧
     (p = 0 → s.layout.committed = false → refusesWith (.breakLoop p n) p 0x2D .mode s) ∧
     (s.orderable p → 8 ≤ n → refusesWith (.breakLoop p n) p 0x2D .argument s) ∧
     ∀ t : TrainId, s.orderable p → n = t.val → let x := s.track.trains[t]
       ((∀ d, x.ride = some d → d.frames = []) → refusesWith (.breakLoop p n) p 0x2D .state s) ∧
       ∀ (d : Ride) (fs : List Frame) (f : Frame), x.ride = some d → d.frames = fs ++ [f] →
         exec (.breakLoop p n) s = .next (replied p 0x2D (.done []) { s with track := { s.track with
           trains := s.track.trains.set t { x with ride := some { d with frames := fs ++ [{ f with broken := true }] } } } }))

/-! ### Station masters and transfer masters -/

/-- DISPATCH (R116): the examination, and the claim of origin DISPATCH with the zone's wait limit, or the route's end.
CANCEL_DISPATCH (R120): accepted in the dispatch phase WAITING alone, where the claim is withdrawn with the cause CANCEL. The
phases of a dispatch (R117, Table 7-2): WAITING and SETTING by the state of the DISPATCH claim of the CLAIMING train that
occupies the zone, CLEARED by the origin of the first leg entry of the CLEARED one. The dispatch or move in progress of a train,
and the notice of its end (R121, R123): DISPATCH_ABORTED or MOVE_ABORTED by its origin, with the cause (the causes' codes are the
model's reading, log 12). -/
def Obligations.DispatchAndCancel : Prop :=
  (∀ (s : State) (p : PortId) (n : Nat), s.idlePort p →
     ((s.ports[p]).role ≠ .station → refusesWith (.dispatch p n) p 0x30 .role s) ∧
     ((s.ports[p]).role = .station → (∀ (z : ZoneId) l, n = z.val → s.layout.zones[z] = some l → l.kind ≠ .station) →
       refusesWith (.dispatch p n) p 0x30 .argument s) ∧
     ∀ (z : ZoneId) (l : ZoneLayout), (s.ports[p]).role = .station → n = z.val → s.layout.zones[z] = some l →
       l.kind = .station →
       let stands := fun t : TrainId => s.track.zoneState z = some (.occupied t) ∧ (s.track.trains[t]).state = .standing ∧
         s.env.cursorAction s.track.trains[t] = some .dispatch ∧ (s.track.trains[t]).atEnd = false
       let ready := ∃ i, l.ready = some i ∧ inputActive s.layout s.inputs (.ready i) = true
       (l.owner ≠ some p → refusesWith (.dispatch p n) p 0x30 .role s) ∧
       (l.owner = some p → perform p true (.dispatch n) s = (s, .refused .state)) ∧
       (l.owner = some p → s.track.mode ≠ .operating → refusesWith (.dispatch p n) p 0x30 .mode s) ∧
       (l.owner = some p → s.track.mode = .operating → (∀ t, ¬ stands t) → refusesWith (.dispatch p n) p 0x30 .state s) ∧
       (∀ t, l.owner = some p → s.track.mode = .operating → stands t → ¬ ready →
         refusesWith (.dispatch p n) p 0x30 .notReady s) ∧
       ∀ (t : TrainId) (d : Ride), l.owner = some p → s.track.mode = .operating → stands t → ready →
         (s.track.trains[t]).ride = some d → hasPending s.track t = false →
         let u := s.work.setTrain t { s.track.trains[t] with ride := some { d with stalled := false } }
         (selectStep s.routes[d.route] d.cursor d.frames = none → exec (.dispatch p n) s =
           .next (replied p 0x30 (.done []) (s.put (closeEval s.env (routeEnd s.env t u))))) ∧
         ∀ (k : Decision) (a b : RouteStep) (g : Leg), selectStep s.routes[d.route] d.cursor d.frames = some k →
           s.env.step d.route d.cursor = some a → s.env.step d.route k.target = some b →
           legBetween s.layout a.zone b.zone = some g → exec (.dispatch p n) s =
             .next (replied p 0x30 .accepted (s.put (closeEval s.env ((arriveClaim
               (.leg { train := t, origin := .dispatch p, start := g.start, zones := g.zones, reqs := g.reqs, decision := k })
               (l.wait.bind fun x => if x = 0 then none else some (x * 1000)) u).modifyTrain t fun r =>
                 { r with state := .claiming }))))) ∧
  (∀ (s : State) (p : PortId) (n : Nat), s.idlePort p →
     ((s.ports[p]).role ≠ .station → refusesWith (.cancelDispatch p n) p 0x31 .role s) ∧
     ((s.ports[p]).role = .station → (∀ (z : ZoneId) l, n = z.val → s.layout.zones[z] = some l → l.kind ≠ .station) →
       refusesWith (.cancelDispatch p n) p 0x31 .argument s) ∧
     ∀ (z : ZoneId) (l : ZoneLayout), (s.ports[p]).role = .station → n = z.val → s.layout.zones[z] = some l →
       l.kind = .station →
       (l.owner ≠ some p → refusesWith (.cancelDispatch p n) p 0x31 .role s) ∧
       (l.owner = some p → (∀ t, dispatchPhase s.track z ≠ some (.waiting, t)) →
         refusesWith (.cancelDispatch p n) p 0x31 .state s) ∧
       ∀ (t : TrainId) (c : Claim), l.owner = some p → dispatchPhase s.track z = some (.waiting, t) →
         dispatchClaim s.track t z = some c → exec (.cancelDispatch p n) s =
           .next (replied p 0x31 (.done []) (s.run fun e w => closeEval e
             (postAbort t (progressOrigin w.toTrack t) .cancel (withdrawClaim c w))))) ∧
  (∀ (w : Track) (t : TrainId) (z : ZoneId), let r := w.trains[t]
     let asks := fun c : Claim => ∃ g p, c.body = .leg g ∧ g.train = t ∧ g.start = z ∧ g.origin = .dispatch p
     let claiming := w.zoneState z = some (.occupied t) ∧ r.state = .claiming
     (∀ c, dispatchClaim w t z = some c ↔
       asks c ∧ ∃ xs ys, w.claims ++ w.line = xs ++ c :: ys ∧ ∀ x ∈ xs, ¬ asks x) ∧
     (dispatchPhase w z = some (.waiting, t) ↔
       claiming ∧ ∃ c, dispatchClaim w t z = some c ∧ c.state = .waiting) ∧
     (dispatchPhase w z = some (.setting, t) ↔
       claiming ∧ ∃ c ns, dispatchClaim w t z = some c ∧ c.state = .setting ns) ∧
     (dispatchPhase w z = some (.cleared, t) ↔ w.zoneState z = some (.occupied t) ∧ r.state = .cleared ∧
       ∃ g gs p, r.authority = g :: gs ∧ g.origin = .dispatch p)) ∧
  (∀ (w : Track) (t : TrainId) (o : Origin), let r := w.trains[t]
     progressOrigin w t = some o ↔
       (∃ z c g xs ys, r.state = .claiming ∧ r.footprint = [z] ∧ c.body = .leg g ∧ g.origin = o ∧ c.startsAt t z = true ∧
         w.claims ++ w.line = xs ++ c :: ys ∧ ∀ x ∈ xs, x.startsAt t z = false) ∨
       (r.state = .cleared ∧ ∃ g gs, r.authority = g :: gs ∧ g.origin = o)) ∧
  ∀ (t : TrainId) (x : AbortCause) (w : Work),
    let k : Byte := match x with
      | .ready => 1
      | .cancel => 2
      | .lapse => 3
      | .halt => 4
      | .standby => 5
      | .handover => 6
      | .retire => 7
      | .lost => 8
    (∀ p, postAbort t (some (.dispatch p)) x w = w.post [0, p] .dispatchAborted (.train t) k) ∧
    (∀ p, postAbort t (some (.move p)) x w = w.post [0, p] .moveAborted (.train t) k) ∧
    postAbort t (some .auto) x w = w ∧ postAbort t none x w = w

/-- MOVE (R123): the examination, and the claim of origin MOVE without a wait limit, or the route's end. -/
def Obligations.Move : Prop :=
  ∀ (s : State) (p : PortId) (n : Nat), s.idlePort p →
    ((s.ports[p]).role ≠ .transfer → refusesWith (.move p n) p 0x32 .role s) ∧
    ((s.ports[p]).role = .transfer → (∀ (z : ZoneId) l, n = z.val → s.layout.zones[z] = some l → l.kind = .run) →
      refusesWith (.move p n) p 0x32 .argument s) ∧
    ∀ (z : ZoneId) (l : ZoneLayout), (s.ports[p]).role = .transfer → n = z.val → s.layout.zones[z] = some l →
      l.kind ≠ .run →
      let stands := fun t : TrainId => s.track.zoneState z = some (.occupied t) ∧ (s.track.trains[t]).state = .standing ∧
        s.env.cursorAction s.track.trains[t] = some .park ∧ (s.track.trains[t]).atEnd = false
      (l.owner ≠ some p → refusesWith (.move p n) p 0x32 .role s) ∧
      (l.owner = some p → perform p true (.move n) s = (s, .refused .state)) ∧
      (l.owner = some p → s.track.mode ≠ .operating → refusesWith (.move p n) p 0x32 .mode s) ∧
      (l.owner = some p → s.track.mode = .operating → (∀ t, ¬ stands t) → refusesWith (.move p n) p 0x32 .state s) ∧
      ∀ (t : TrainId) (d : Ride), l.owner = some p → s.track.mode = .operating → stands t →
        (s.track.trains[t]).ride = some d → hasPending s.track t = false →
        let u := s.work.setTrain t { s.track.trains[t] with ride := some { d with stalled := false } }
        (selectStep s.routes[d.route] d.cursor d.frames = none → exec (.move p n) s =
          .next (replied p 0x32 (.done []) (s.put (closeEval s.env (routeEnd s.env t u))))) ∧
        ∀ (k : Decision) (a b : RouteStep) (g : Leg), selectStep s.routes[d.route] d.cursor d.frames = some k →
          s.env.step d.route d.cursor = some a → s.env.step d.route k.target = some b →
          legBetween s.layout a.zone b.zone = some g → exec (.move p n) s =
            .next (replied p 0x32 .accepted (s.put (closeEval s.env ((arriveClaim
              (.leg { train := t, origin := .move p, start := g.start, zones := g.zones, reqs := g.reqs, decision := k })
              none u).modifyTrain t fun r => { r with state := .claiming }))))

/-! ### Sections -/

/-- REQUEST_SECTION and CANCEL_SECTION (R138, R139): the examination (with the pre-lapse mark of R176, STATE), the claim with
its section switches, and its withdrawal. -/
def Obligations.RequestAndCancelSection : Prop :=
  ∀ (s : State) (p : PortId) (zs : List Nat) (wait : Option Nat), s.idlePort p →
    let may := p = 0 ∨ (s.ports[p]).role = .transfer
    let fit := 1 ≤ zs.length ∧ zs.length ≤ 8 ∧ zs.Nodup ∧
      (∀ n ∈ zs, ∃ z : ZoneId, n = z.val ∧ s.layout.zones[z] ≠ none) ∧ ∀ w, wait = some w → 1 ≤ w ∧ w ≤ 255
    (¬ may → refusesWith (.requestSection p zs wait) p 0x38 .role s) ∧
    (may → s.layout.committed = false → refusesWith (.requestSection p zs wait) p 0x38 .mode s) ∧
    (may → s.layout.committed = true → ¬ fit → refusesWith (.requestSection p zs wait) p 0x38 .argument s) ∧
    (may → s.layout.committed = true → fit → s.track.sections[p] ≠ .none →
      refusesWith (.requestSection p zs wait) p 0x38 .state s) ∧
    (may → s.layout.committed = true → fit → perform p true (.requestSection zs wait) s = (s, .refused .state)) ∧
    (∀ ys : List ZoneId, may → s.layout.committed = true → fit → s.track.sections[p] = .none → zs = ys.map (·.val) →
      ∃ ns : List SwitchId, (∀ n, n ∈ ns ↔ ∃ l, s.layout.switches[n] = some l ∧ l.root ∈ ys ∧ l.straight ∈ ys ∧ l.diverge ∈ ys) ∧
        exec (.requestSection p zs wait) s = .next (replied p 0x38 .accepted (s.run fun e w => closeEval e
          ((arriveClaim (.sectionOf { port := p, zones := ys, switches := ns }) (wait.map (· * 1000)) w).setSection p
            .claimed)))) ∧
    (¬ may → refusesWith (.cancelSection p) p 0x39 .role s) ∧
    (may → s.track.sections[p] ≠ .claimed → refusesWith (.cancelSection p) p 0x39 .state s) ∧
    (may → s.track.sections[p] = .claimed → exec (.cancelSection p) s =
      .next (replied p 0x39 (.done []) (s.run fun e w => closeEval e
        ((withdrawAll (fun c => c.isSectionOf p) w).setSection p .none))))

/-- RETURN_SECTION (R143): the examination, and the return, with the outcome of every zone in the reply (log 10). The judging
of a returned zone (R144): the first reason of the table that applies, else CLEAR or OCCUPIED. -/
def Obligations.ReturnSection : Prop :=
  (∀ (s : State) (p : PortId) (ds : List (Nat × Declared)), s.idlePort p →
     let may := p = 0 ∨ (s.ports[p]).role = .transfer
     (¬ may → refusesWith (.returnSection p ds) p 0x3A .role s) ∧
     (may → (∀ h, s.track.sections[p] ≠ .held h) → refusesWith (.returnSection p ds) p 0x3A .state s) ∧
     ∀ h, may → s.track.sections[p] = .held h →
       ((∃ d ∈ ds, (∀ z ∈ h.zones, d.1 ≠ z.val) ∨ ∃ n, d.2 = .train n ∧ 8 ≤ n) ∨ ¬ (ds.map (·.1)).Nodup →
         refusesWith (.returnSection p ds) p 0x3A .argument s) ∧
       ∀ xs : List (ZoneId × Option TrainId), (∀ x ∈ xs, x.1 ∈ h.zones) → (xs.map (·.1)).Nodup →
         ds = xs.map (fun x => (x.1.val, match x.2 with
           | none => .empty
           | some t => .train t.val)) →
         exec (.returnSection p ds) s = .next (replied p 0x3A
           (.done (returnData (h.zones.map fun z => (z, judgeZone s.env s.track p xs z))))
           (s.run fun e w => closeEvent e (returnSection e p h xs w)))) ∧
  (∀ (e : Env) (w : Track) (p : PortId) (ds : List (ZoneId × Option TrainId)) (z : ZoneId),
     let stop := e.layout.stoppableZone z ∧ inputActive e.layout e.inputs (.stop z) = true
     let busy := (∃ q l g, w.trackers[z] = some (.passing q l g)) ∨ ∃ g, w.trackers[z] = some (.stuck g)
     let fit := fun t : TrainId =>
       ((w.trains[t]).state = .manual ∧ (w.trains[t]).sectionPort = some p) ∨ (w.trains[t]).state = .absent
     let twice := fun t : TrainId => 2 ≤ (ds.filter fun d => decide (d.2 = some t)).length
     ((∀ d ∈ ds, d.1 ≠ z) → judgeZone e w p ds z = .unknown .undeclared) ∧
     ((ds.map (·.1)).Nodup → (z, none) ∈ ds →
       (stop → judgeZone e w p ds z = .unknown .stopSensor) ∧ (¬ stop → busy → judgeZone e w p ds z = .unknown .passage) ∧
       (¬ stop → ¬ busy → judgeZone e w p ds z = .clear)) ∧
     ∀ t, (ds.map (·.1)).Nodup → (z, some t) ∈ ds →
       (¬ e.layout.stoppableZone z → judgeZone e w p ds z = .unknown .runZone) ∧
       (e.layout.stoppableZone z → ¬ fit t → judgeZone e w p ds z = .unknown .trainState) ∧
       (e.layout.stoppableZone z → fit t → twice t → judgeZone e w p ds z = .unknown .duplicate) ∧
       (e.layout.stoppableZone z → fit t → ¬ twice t → judgeZone e w p ds z = .occupied t))

/-- The effects of a return (R145, R146, R133; the reasons' codes are their places in R144's table): every zone takes its
judged state, with RETURN_MISMATCH where it is UNKNOWN (the zones in the order requested, then the trains in ascending
number: the model's order, log 15); the trains of the section are STANDING, STORED, LOST or removed; the
switches leave the section; the record is NONE, the release rule is applied, SECTION_RETURNED carries how many zones are
UNKNOWN, and the trains set STANDING act on their steps in ascending number. -/
def Obligations.SectionReturnEffects : Prop :=
  (∀ (e : Env) (p : PortId) (h : HeldSection) (ds : List (ZoneId × Option TrainId)) (w : Work),
     let js := h.zones.map fun z => (z, judgeZone e w.toTrack p ds z)
     let w1 := js.foldl (fun w q => returnZone p q w) w
     let w2 := trainIds.foldl (fun w t => returnTrain e p ds js t w) w1
     let w3 := (h.switches.foldl (fun w n => w.modifySwitch n leaveSection) w2).setSection p .none
     let w4 := (applyRelease e w3).post [0] .sectionReturned (.port p)
       (byteOf (js.filter fun q => match q.2 with
         | .unknown _ => true
         | _ => false).length)
     returnSection e p h ds w = (trainIds.filter fun t =>
       (js.any fun q => decide (q.2 = .occupied t)) && decide ((w4.trains[t]).state = .standing)).foldl
         (fun w t => actOnStep e t w) w4) ∧
  (∀ (p : PortId) (z : ZoneId) (w : Work),
     returnZone p (z, .clear) w = w.setZone z .clear ∧
     (∀ t, returnZone p (z, .occupied t) w = w.setZone z (.occupied t)) ∧
     ∀ x, returnZone p (z, .unknown x) w = (w.setZone z .unknown).post [0, p] .returnMismatch (.zone z) (match x with
       | .stopSensor => 1
       | .passage => 2
       | .runZone => 3
       | .trainState => 4
       | .duplicate => 5
       | .undeclared => 6)) ∧
  (∀ (e : Env) (p : PortId) (ds : List (ZoneId × Option TrainId)) (js : List (ZoneId × Judged)) (t : TrainId) (w : Work),
     let r := w.trains[t]
     let mine := r.state = .manual ∧ r.sectionPort = some p
     let v := returnTrain e p ds js t w
     (∀ z, (z, .occupied t) ∈ js → (∀ y, (y, .occupied t) ∈ js → y = z) →
       (r.state = .manual → (e.cursorStep r).map (·.zone) = some z → v = w.setTrain t { r with
         state := .standing, footprint := [z], sectionPort := none, ride := r.ride.map fun d => { d with stalled := false } }) ∧
       (r.state = .manual → (e.cursorStep r).map (·.zone) ≠ some z → v = w.setTrain t { r with
         state := .stored, footprint := [z], sectionPort := none, ride := none }) ∧
       (r.state = .absent → v = w.setTrain t
         { state := .stored, footprint := [z], authority := [], ride := none, tag := 0, sectionPort := none, dwell := none
           departure := none, travel := none })) ∧
     ((∀ z, (z, .occupied t) ∉ js) →
       (mine → (∃ z, (z, some t) ∈ ds) → v = w.setTrain t { r with
         state := .lost, footprint := [], authority := [], sectionPort := none, dwell := none, departure := none
         travel := none, ride := r.ride.map fun d => { d with stalled := false } }) ∧
       (mine → (∀ z, (z, some t) ∉ ds) → v = (w.setTrain t
         { state := .absent, footprint := [], authority := [], ride := none, tag := 0, sectionPort := none, dwell := none
           departure := none, travel := none }).post [0, p] .trainRemoved (.train t)) ∧
       (¬ mine → v = w))) ∧
  ∀ r : Switch,
    (∀ q l p, r.state = .moving q l (.port p) → leaveSection r = { r with state := .moving q l .none, sectionPort := none }) ∧
    ((∀ q l p, r.state ≠ .moving q l (.port p)) → leaveSection r = { r with sectionPort := none })

/-- SET_HOLD (R142) and MOVE_SWITCH (R133, R128); the codes of request and position are the model's (log 9), and so is the
reading of an uncommitted layout's records (log 31). -/
def Obligations.SetHoldAndMoveSwitch : Prop :=
  (∀ (s : State) (p : PortId) (n r : Nat), s.idlePort p →
     let may := p = 0 ∨ (s.ports[p]).role = .transfer
     (¬ may → refusesWith (.setHold p n r) p 0x3B .role s) ∧
     (may → (∀ z : ZoneId, n = z.val → ¬ s.layout.stoppableZone z) ∨ (r ≠ 1 ∧ r ≠ 2) →
       refusesWith (.setHold p n r) p 0x3B .argument s) ∧
     ∀ (z : ZoneId) (x : Hold), may → n = z.val → s.layout.stoppableZone z → r = (match x with
         | .held => 1
         | .released => 2) →
       (s.track.zoneState z ≠ some (.handed p) ∨ (∀ h, s.track.sections[p] ≠ .held h) →
         refusesWith (.setHold p n r) p 0x3B .state s) ∧
       ∀ h, s.track.zoneState z = some (.handed p) → s.track.sections[p] = .held h →
         (s.track.mode = .estopped → refusesWith (.setHold p n r) p 0x3B .mode s) ∧
         (s.track.mode ≠ .estopped → exec (.setHold p n r) s = .next (replied p 0x3B (.done []) (s.run fun e w =>
           applyRelease e (w.setSection p (.held { h with
             requests := h.requests.map fun q => if q.1 = z then (z, x) else q })))))) ∧
  (∀ (s : State) (p : PortId) (n m : Nat), s.idlePort p →
     let may := p = 0 ∨ (s.ports[p]).role = .transfer
     (¬ may → refusesWith (.moveSwitch p n m) p 0x3C .role s) ∧
     (may → (∀ k : SwitchId, n = k.val → s.layout.switches[k] = none) ∨ (m ≠ 1 ∧ m ≠ 2) →
       refusesWith (.moveSwitch p n m) p 0x3C .argument s) ∧
     ∀ (k : SwitchId) (l : SwitchLayout) (q : Position), may → n = k.val → s.layout.switches[k] = some l →
       m = (match q with
         | .straight => 1
         | .diverge => 2) →
       ((∀ r, s.track.switches[k] = some r → r.sectionPort ≠ some p) → refusesWith (.moveSwitch p n m) p 0x3C .state s) ∧
       ∀ r, s.track.switches[k] = some r → r.sectionPort = some p →
         (s.track.mode = .estopped → refusesWith (.moveSwitch p n m) p 0x3C .mode s) ∧
         (s.track.mode ≠ .estopped → r.isMoving = true → refusesWith (.moveSwitch p n m) p 0x3C .busy s) ∧
         (s.track.mode ≠ .estopped → r.state = .settled q → exec (.moveSwitch p n m) s =
           .next (replied p 0x3C (.done []) s)) ∧
         (s.track.mode ≠ .estopped → r.isMoving = false → r.state ≠ .settled q → exec (.moveSwitch p n m) s =
           .next (replied p 0x3C .accepted (s.run fun e w => arrivals e 4 (applyRelease e (w.modifySwitch k fun x =>
             { x with
               state := .moving q (l.moveLimit * 100) (.port p), attempts := 0
               driveStraight := decide (q = .straight), driveDiverge := decide (q = .diverge) }))))))

/-! ### Field events and timer events -/

/-- The entry sensor and the timers of a passage (R42 to R45; a level the tracker has already been told is no change, log 5;
an expiry takes effect where its timer runs, log 4). A tracker created or reset (R42, R46): IDLE, or a silent PASSING with the
full limit where its sensor is active. -/
def Obligations.PassageTracking : Prop :=
  ∀ (s : State) (z : ZoneId),
    let gap := ((s.layout.zones[z]).map fun r => r.gap * 20).getD 0
    let limit := ((s.layout.zones[z]).map fun r => r.limit * 100).getD 0
    (∀ a : Bool, let u := s.setInput (.entry z) a
      let put := fun k : Tracker => { u with track := { s.track with trackers := s.track.trackers.set z (some k) } }
      (inputSeen s.layout s.inputs (.entry z) = a ∨ s.track.trackers[z] = none →
        exec (.entrySensorChange z a) s = .next u) ∧
      (inputSeen s.layout s.inputs (.entry z) ≠ a → s.track.trackers[z] = some .idle → a = true →
        exec (.entrySensorChange z a) s = .next (u.run fun e w =>
          headEvent e z (w.setTracker z (.passing false limit none)))) ∧
      (inputSeen s.layout s.inputs (.entry z) ≠ a → s.track.trackers[z] = some .idle → a = false →
        exec (.entrySensorChange z a) s = .next u) ∧
      (∀ q l g, inputSeen s.layout s.inputs (.entry z) ≠ a → s.track.trackers[z] = some (.passing q l g) →
        exec (.entrySensorChange z a) s = .next (put (.passing q l (if a then none else some gap)))) ∧
      (∀ g, inputSeen s.layout s.inputs (.entry z) ≠ a → s.track.trackers[z] = some (.stuck g) →
        exec (.entrySensorChange z a) s = .next (put (.stuck (if a then none else some gap))))) ∧
    (let put := fun k : Tracker => { s with track := { s.track with trackers := s.track.trackers.set z (some k) } }
     (∀ l g, s.track.trackers[z] = some (.passing false l (some g)) →
        exec (.passageGapExpiry z) s = .next (s.run fun e w => tailEvent e z (w.setTracker z .idle))) ∧
      (∀ l g, s.track.trackers[z] = some (.passing true l (some g)) → exec (.passageGapExpiry z) s = .next (put .idle)) ∧
      (∀ g, s.track.trackers[z] = some (.stuck (some g)) → exec (.passageGapExpiry z) s = .next (put .idle)) ∧
      ((∀ q l g, s.track.trackers[z] ≠ some (.passing q l (some g))) → (∀ g, s.track.trackers[z] ≠ some (.stuck (some g))) →
        exec (.passageGapExpiry z) s = .next s)) ∧
    (∀ q l g, s.track.trackers[z] = some (.passing q l g) → exec (.passageLimitExpiry z) s = .next (s.run fun e w =>
      closeEvent e (raiseHalt e .sensorStuck (.zone z) 0xFF 0xFF (faultZones .sensorStuck [z] (w.setTracker z (.stuck g)))))) ∧
    ((∀ q l g, s.track.trackers[z] ≠ some (.passing q l g)) → exec (.passageLimitExpiry z) s = .next s) ∧
    freshTracker s.env z = (if inputActive s.layout s.inputs (.entry z) then .passing true limit none else .idle)

/-- Head events and tail events (R47 to R53; the details of PASSAGE, 1 for HEAD and 2 for TAIL, by R179, log 12), by the
zone's state and the train whose authority or footprint holds it. -/
def Obligations.HeadAndTailEvents : Prop :=
  ∀ (e : Env) (z : ZoneId) (w : Work),
    (w.zoneState z = none → headEvent e z w = w ∧ tailEvent e z w = w) ∧
    (∀ p, w.zoneState z = some (.handed p) →
      headEvent e z w = w.post [p] .passage (.zone z) 1 ∧ tailEvent e z w = w.post [p] .passage (.zone z) 2) ∧
    ∀ x, w.zoneState z = some x → (∀ p, x ≠ .handed p) →
      let intrusion := closeEvent e
        (raiseHalt e .intrusion (.zone z) (zoneStateCode x) 0xFF (faultZones .intrusion [z] w))
      let anomaly := w.post [0] .sensorAnomaly (.zone z) (zoneStateCode x)
      ((∀ t : TrainId, z ∉ (w.trains[t]).ahead) → headEvent e z w = intrusion) ∧
      (∀ (t : TrainId) (g : LegEntry) (gs : List LegEntry), (w.trains[t]).authority = g :: gs → z ∈ (w.trains[t]).ahead →
        (∀ u : TrainId, z ∈ (w.trains[u]).ahead → u = t) →
        let moves := (w.trains[t]).state = .cleared ∨ (w.trains[t]).state = .running ∨ (w.trains[t]).state = .halted
        let n := (w.trains[t]).footprint.length
        ((w.trains[t]).ahead.head? = some z → moves → n < 4 →
          headEvent e z w = closeEvent e (checkShort e t z (takeHead e t z g gs w))) ∧
        ((w.trains[t]).ahead.head? = some z → moves → 4 ≤ n → headEvent e z w = closeEvent e (overrunShort e t w)) ∧
        ((w.trains[t]).ahead.head? = some z → ¬ moves → headEvent e z w = intrusion) ∧
        ((w.trains[t]).ahead.head? ≠ some z → headEvent e z w = closeEvent e (missSensor e t z w))) ∧
      ((∀ t : TrainId, z ∉ (w.trains[t]).footprint) → tailEvent e z w = anomaly) ∧
      ∀ (t : TrainId) (a b : List ZoneId), (w.trains[t]).footprint = a ++ z :: b → z ∉ a →
        (∀ u : TrainId, z ∈ (w.trains[u]).footprint → u = t) →
        (a = [] → tailEvent e z w = anomaly) ∧ (a ≠ [] → tailEvent e z w = closeEvent e (restReleased e t z (takeTail e t z w)))

/-- What a head event and a tail event do to train and zones (R20, R21, R47, R51, R61): the zone moves from the front of the
authority to the head of the footprint, the entry leaving at its destination with the cursor at its target step; the leg's
decision is committed to the frames (R90), a CLEARED train departs with DEPARTED for a dispatch (R66, R121), the travel timer
takes the entered zone's limit (R68), and at the start of a leg whose target is a PASS step and for which no onward claim was
formed at the grant (R60, log 14) one is formed from that step, behind the committed frames (R59). The zones before the tail
event's zone leave the footprint and settle. Every other zone and train is as it was. -/
def Obligations.TrainsAdvanceAndClear : Prop :=
  (∀ (e : Env) (t : TrainId) (z : ZoneId) (g : LegEntry) (gs : List LegEntry) (w : Work),
    (w.trains[t]).authority = g :: gs → w.zones[z] ≠ none →
    let v := takeHead e t z g gs w
    (v.trains[t]).footprint = (w.trains[t]).footprint ++ [z] ∧ v.zoneState z = some (.occupied t) ∧
    (∀ y, y ≠ z → v.zoneState y = w.zoneState y) ∧ (∀ u : TrainId, u ≠ t → v.trains[u] = w.trains[u]) ∧
    (g.zones = [z] → (v.trains[t]).authority = gs ∧
      (v.trains[t]).ride.map (·.cursor) = (w.trains[t]).ride.map fun _ => g.target) ∧
    ∀ y ys, g.zones = z :: y :: ys →
      (v.trains[t]).authority = { g with zones := y :: ys, started := true, decision := none } :: gs ∧
      (v.trains[t]).ride.map (·.cursor) = (w.trains[t]).ride.map (·.cursor)) ∧
  (∀ (e : Env) (t : TrainId) (z : ZoneId) (g : LegEntry) (gs : List LegEntry) (w : Work),
    let r := w.trains[t]
    let v := takeHead e t z g gs w
    let committed := fun d : Ride => match g.decision with
      | some k => applyFrameOps d.frames k.ops
      | none => d.frames
    let departs := r.state = .cleared ∧ ∃ y, r.footprint = [y]
    (v.trains[t]).ride.map (·.frames) = r.ride.map committed ∧
    (v.trains[t]).ride.map (fun d => (d.route, d.stalled, d.atEnd)) = r.ride.map (fun d => (d.route, d.stalled, d.atEnd)) ∧
    (v.trains[t]).travel = ((e.layout.zones[z]).bind fun l => if l.travel = 0 then none else some (l.travel * 100)) ∧
    (departs → (v.trains[t]).state = .running ∧ (v.trains[t]).departure = none ∧ v.posts = match g.origin with
      | .dispatch p => w.posts ++ [
          { note := { name := .departed, subject := .train t, detail1 := byteOf g.start.val, detail2 := 0xFF }
            named := [0, p] }]
      | _ => w.posts) ∧
    (¬ departs → (v.trains[t]).state = r.state ∧ (v.trains[t]).departure = r.departure ∧ v.posts = w.posts) ∧
    { v with zones := w.zones, trains := w.trains, claims := w.claims, line := w.line, nextSeq := w.nextSeq
             posts := w.posts } = w ∧
    let keeps := v.claims = w.claims ∧ v.line = w.line ∧ v.nextSeq = w.nextSeq
    let pending := ∃ c ∈ w.claims ++ w.line, c.isLegOf t = true ∧ c.state = .waiting
    let occasion := fun d : Ride => g.started = false ∧ g.onward = false ∧
      (e.step d.route g.target).map (·.action) = some .pass ∧ w.mode = .operating ∧ ¬ pending ∧ d.atEnd = false ∧
      d.stalled = false
    ((∀ d, r.ride = some d → ¬ occasion d) → keeps) ∧
    ∀ d, r.ride = some d → occasion d →
      (selectStep e.routes[d.route] g.target (committed d) = none → keeps) ∧
      ∀ (k : Decision) (a b : RouteStep) (q : Leg), selectStep e.routes[d.route] g.target (committed d) = some k →
        e.step d.route g.target = some a → e.step d.route k.target = some b → legBetween e.layout a.zone b.zone = some q →
        let u := arriveClaim (.leg { train := t, origin := .auto, start := q.start, zones := q.zones, reqs := q.reqs
                                     decision := k }) none w
        v.claims = u.claims ∧ v.line = u.line ∧ v.nextSeq = u.nextSeq) ∧
  ∀ (e : Env) (t : TrainId) (z : ZoneId) (a b : List ZoneId) (w : Work), (w.trains[t]).footprint = a ++ z :: b → z ∉ a →
    let v := takeTail e t z w
    (∀ y ∈ a, ∀ l : ZoneLayout, w.zones[y] ≠ none → e.layout.zones[y] = some l →
      v.zoneState y = some (if l.settle = 0 then .clear else .clearing t (l.settle * 100))) ∧
    (∀ y, y ∉ a → v.zones[y] = w.zones[y]) ∧ v.trains[t] = { w.trains[t] with footprint := z :: b } ∧
    (∀ u : TrainId, u ≠ t → v.trains[u] = w.trains[u]) ∧ { v with zones := w.zones, trains := w.trains } = w

/-- What a fault with a ride halt does (R153, R154): its notice to the supervisor, and in OPERATING and STANDBY the ride halt
with the MODE notice of cause FAULT. SHORT_ZONE (R48): raised with the head zone when the footprint has grown to 4 zones; a
head event that a footprint of 4 cannot take makes the train LOST, with its claims gone, its zones UNKNOWN and a dispatch or
move in progress aborted with the cause LOST (R121; its code, log 12), and raises it again, naming the head zone the train had
(the model's reading, log 28). SENSOR_MISSED (R49): every skipped zone is FAULT, the train LOST in the same way, its other
zones UNKNOWN, the fault raised once at the first skipped zone with the train. -/
def Obligations.ShortZoneAndMissedSensor : Prop :=
  (∀ (e : Env) (n : NoticeName) (x : Subject) (a b : Byte) (w : Work), let v := w.post [0] n x a b
     (w.mode = .operating ∨ w.mode = .standby →
       raiseHalt e n x a b w = postMode w.mode (.fault n) (rideHalt e .halted v)) ∧
     (w.mode ≠ .operating → w.mode ≠ .standby → raiseHalt e n x a b w = v)) ∧
  (∀ (e : Env) (t : TrainId) (z : ZoneId) (w : Work),
     ((w.trains[t]).footprint.length = 4 →
       checkShort e t z w = raiseHalt e .shortZone (.train t) (byteOf z.val) 0xFF w) ∧
     ((w.trains[t]).footprint.length ≠ 4 → checkShort e t z w = w) ∧
     ∀ y, (w.trains[t]).footprint.getLast? = some y →
       overrunShort e t w = raiseHalt e .shortZone (.train t) (byteOf y.val) 0xFF (loseTrain t w)) ∧
  (∀ (t : TrainId) (w : Work), let r := w.trains[t]; let v := loseTrain t w
     v.trains[t] = { r with state := .lost, footprint := [], authority := [], sectionPort := none, dwell := none
                            departure := none, travel := none, ride := r.ride.map fun d => { d with stalled := false } } ∧
     (∀ u : TrainId, u ≠ t → v.trains[u] = w.trains[u]) ∧
     (∀ y ∈ r.footprint ++ r.ahead, w.zones[y] ≠ none → v.zoneState y = some .unknown) ∧
     (∀ y, y ∉ r.footprint ++ r.ahead → v.zoneState y = w.zoneState y) ∧
     v.claims ++ v.line = (w.claims ++ w.line).filter (fun c => !c.isLegOf t) ∧ v.posts = w.posts ++ w.abortPosts t 8 ∧
     { v with zones := w.zones, trains := w.trains, claims := w.claims, line := w.line, switches := w.switches
              posts := w.posts } = w) ∧
  ∀ (e : Env) (t : TrainId) (z y : ZoneId) (ys zs : List ZoneId) (w : Work), let r := w.trains[t]
    r.ahead = y :: ys ++ z :: zs → z ∉ y :: ys →
    let v := faultZones .sensorMissed (y :: ys) w
    missSensor e t z w = raiseHalt e .sensorMissed (.zone y) (byteOf t.val) 0xFF v ∧
    ((∀ x ∈ y :: ys, w.zoneState x = some (.reserved t)) →
      (∀ x ∈ y :: ys, v.zoneState x = some (.fault .sensorMissed)) ∧ (v.trains[t]).state = .lost ∧
      (v.trains[t]).footprint = [] ∧ (v.trains[t]).authority = [] ∧ (∀ u : TrainId, u ≠ t → v.trains[u] = w.trains[u]) ∧
      (∀ x ∈ r.footprint ++ z :: zs, x ∉ y :: ys → w.zones[x] ≠ none → v.zoneState x = some .unknown) ∧
      (∀ x, x ∉ r.footprint ++ r.ahead → v.zoneState x = w.zoneState x) ∧
      v.claims ++ v.line = (w.claims ++ w.line).filter (fun c => !c.isLegOf t) ∧ v.posts = w.posts ++ w.abortPosts t 8)

/-- The stop sensor (R63, R66) and READY (R118, R119; log 5): a CLEARED train departs, an event with a RUNNING or HALTED train
in the one zone is closed, a dispatch is taken back with the cause READY (its code is the model's reading, log 12), by the
phase and the notice that DispatchAndCancel spells. Which wire level `setInput` gives the stop sensor of a RUN zone of a
committed layout is the model's choice (log 33); no clause says which it is. -/
def Obligations.StopSensorAndReady : Prop :=
  (∀ (s : State) (z : ZoneId) (a : Bool), let u := s.setInput (.stop z) a
    let rests := fun (t : TrainId) (x : TrainState) => (s.track.trains[t]).state = x ∧ (s.track.trains[t]).footprint = [z]
    (inputSeen s.layout s.inputs (.stop z) = a ∨ s.track.hold z = none → exec (.stopSensorChange z a) s = .next u) ∧
    (inputSeen s.layout s.inputs (.stop z) ≠ a → s.track.hold z ≠ none → a = false → (∀ t, ¬ rests t .cleared) →
      exec (.stopSensorChange z a) s = .next u) ∧
    (∀ t, inputSeen s.layout s.inputs (.stop z) ≠ a → s.track.hold z ≠ none → a = false → rests t .cleared →
      (∀ v, rests v .cleared → v = t) → exec (.stopSensorChange z a) s = .next (u.run fun e w =>
        postDeparted t (w.trains[t]).authority.head? (w.modifyTrain t fun r =>
          { r with state := .running, departure := none
                   travel := (e.layout.zones[z]).bind fun l => if l.travel = 0 then none else some (l.travel * 100) }))) ∧
    (inputSeen s.layout s.inputs (.stop z) ≠ a → s.track.hold z ≠ none → a = true →
      (∀ t, ¬ rests t .running ∧ ¬ rests t .halted) → exec (.stopSensorChange z a) s = .next u) ∧
    (inputSeen s.layout s.inputs (.stop z) ≠ a → s.track.hold z ≠ none → a = true →
      (∃ t, rests t .running ∨ rests t .halted) →
      exec (.stopSensorChange z a) s = .next (u.run fun e w => closeEvent e w))) ∧
  ∀ (s : State) (i : ReadyId) (a : Bool), let u := s.setInput (.ready i) a
    let names := fun z : ZoneId => ∃ l, s.layout.zones[z] = some l ∧ l.kind = .station ∧ l.ready = some i
    (inputSeen s.layout s.inputs (.ready i) = a ∨ a = true ∨ s.layout.committed = false ∨ (∀ z, ¬ names z) →
      exec (.readyChange i a) s = .next u) ∧
    ∀ z, names z → (∀ y, names y → y = z) → inputSeen s.layout s.inputs (.ready i) ≠ a → a = false →
      s.layout.committed = true →
      (dispatchPhase s.track z = none → exec (.readyChange i a) s = .next u) ∧
      (∀ t f c, dispatchPhase s.track z = some (f, t) → f = .waiting ∨ f = .setting → dispatchClaim s.track t z = some c →
        exec (.readyChange i a) s = .next (u.run fun e w =>
          closeEvent e (postAbort t (progressOrigin w.toTrack t) .ready (withdrawClaim c w)))) ∧
      ∀ t, dispatchPhase s.track z = some (.cleared, t) → exec (.readyChange i a) s = .next (u.run fun e w =>
        closeEvent e (postAbort t (progressOrigin w.toTrack t) .ready ((removeEntries t 0 w).modifyTrain t fun r =>
          { r with state := .standing, departure := none, ride := r.ride.map fun d => { d with stalled := false } })))

/-- Coming to rest (R62 to R64). A RUNNING or HALTED train whose footprint is one zone with its hold HELD and its stop sensor
active is set at rest: no travel timer, a HALTED one without its leg entries, its claims for legs from elsewhere withdrawn,
ARRIVED posted, and then CLAIMING with its own claim from the zone (at a PASS step where it was RUNNING), else STANDING and
acting on its cursor step. An event that closes judges every train so, between two applications of the release rule, and then
evaluates (R29, R97); the moves that have arrived at their start arrive behind it, the lowest-numbered first, within the same
step (R128; their order is the model's reading, log 13; their place ahead of other due events, log 32). The tail event that
leaves a RUNNING train with one zone, its hold RELEASED and its stop sensor active, sets it CLEARED at a PASS step (R62; the
tail event alone, log 19). -/
def Obligations.ComingToRest : Prop :=
  (∀ (e : Env) (t : TrainId) (w : Work), let r := w.trains[t]
     (∀ z, r.footprint = [z] → e.active (.stop z) = true → w.hold z = some .held → r.state = .running ∨ r.state = .halted →
       let w1 := w.setTrain t { r with state := .standing, travel := none }
       let w2 := withdrawAll (fun c => c.isLegOf t && !c.startsAt t z) (if r.state = .halted then removeEntries t 0 w1 else w1)
       let v := w2.post (0 :: ((e.layout.zones[z]).bind (·.owner)).toList) .arrived (.train t) (byteOf z.val)
       let own := ∃ c ∈ v.claims ++ v.line, c.startsAt t z = true
       (own → r.state = .halted ∨ e.cursorAction v.trains[t] = some .pass →
         restTrain e t w = v.modifyTrain t fun r => { r with state := .claiming }) ∧
       (¬ (own ∧ (r.state = .halted ∨ e.cursorAction v.trains[t] = some .pass)) → restTrain e t w = actOnStep e t v)) ∧
     ((¬ ∃ z, r.footprint = [z] ∧ e.active (.stop z) = true ∧ w.hold z = some .held ∧
       (r.state = .running ∨ r.state = .halted)) → restTrain e t w = w)) ∧
  (∀ (e : Env) (t : TrainId) (w : Work), let r := w.trains[t]
     (e.cursorAction r = some .pass → actOnStep e t w = formAtRest e t .auto none w) ∧
     (∀ d, e.cursorAction r = some (.hold d) → d ≠ 0 →
       actOnStep e t w = w.setTrain t { r with dwell := some (d * 100) }) ∧
     (e.cursorAction r = some (.hold 0) →
       actOnStep e t w = formAtRest e t .auto none (w.setTrain t { r with dwell := none })) ∧
     (e.cursorAction r = some .dispatch ∨ e.cursorAction r = none → actOnStep e t w = w) ∧
     ∀ z, e.cursorAction r = some .park → r.footprint = [z] → actOnStep e t w =
       w.post (0 :: ((e.layout.zones[z]).bind (·.owner)).toList) .atPark (.train t) (byteOf z.val)) ∧
  (∀ (e : Env) (w : Work),
     conclude e w = evaluate e (applyRelease e (trainIds.foldl (fun w t => restTrain e t w) (applyRelease e w))) ∧
     closeEvent e w = arrivals e 4 (conclude e w) ∧ closeEval e w = arrivals e 4 (evaluate e w)) ∧
  (∀ (e : Env) (w : Work) (k : Nat),
     ((∀ n q l v, w.switchState n = some (.moving q l v) → e.positionRead n ≠ some q) → arrivals e k w = w) ∧
     ∀ n q l v, w.switchState n = some (.moving q l v) → e.positionRead n = some q →
       (∀ m, m < n → ∀ q l v, w.switchState m = some (.moving q l v) → e.positionRead m ≠ some q) →
       arrivals e (k + 1) w = arrivals e k (conclude e (arrive n w))) ∧
  ∀ (e : Env) (t : TrainId) (z : ZoneId) (w : Work), let r := w.trains[t]
    let rests := r.state = .running ∧ r.footprint = [z] ∧ e.cursorAction r = some .pass ∧ w.hold z = some .released ∧
      e.active (.stop z) = true
    (rests → restReleased e t z w = w.setTrain t { r with
      state := .cleared, travel := none
      departure := some (((e.layout.zones[z]).map fun l => l.window.getD 0 * 100).getD 0) }) ∧
    (¬ rests → restReleased e t z w = w)

/-- The hold feedback (R30 to R32; log 4, log 5): CONFIRMED, DISAGREE, and the fault HOLD_FAILED or the notice HOLD_STUCK. -/
def Obligations.HoldFeedback : Prop :=
  ∀ (s : State) (z : ZoneId),
    let failed := fun (u : State) (b : Brake) => u.run fun e w => match b.hold with
      | .held => closeEvent e (raiseHalt e .holdFailed (.zone z) 0xFF 0xFF
          (faultZones .holdFailed [z] (w.setSupervision z .disagree)))
      | .released => (w.setSupervision z .disagree).post [0] .holdStuck (.zone z)
    let confirmed := fun (u : State) => u.run fun _ w => w.setSupervision z .confirmed
    (∀ a : Bool, let u := s.setInput (.feedback z) a
      (inputSeen s.layout s.inputs (.feedback z) = a ∨ s.track.brake z = none →
        exec (.holdFeedbackChange z a) s = .next u) ∧
      ∀ b, inputSeen s.layout s.inputs (.feedback z) ≠ a → s.track.brake z = some b →
        let fits := b.hold = .held ↔ a = true
        (∀ n, b.supervision = .awaiting n → exec (.holdFeedbackChange z a) s = .next u) ∧
        (b.supervision = .confirmed → fits → exec (.holdFeedbackChange z a) s = .next u) ∧
        (b.supervision = .confirmed → ¬ fits → exec (.holdFeedbackChange z a) s = .next (failed u b)) ∧
        (b.supervision = .disagree → fits → exec (.holdFeedbackChange z a) s = .next (confirmed u)) ∧
        (b.supervision = .disagree → ¬ fits → exec (.holdFeedbackChange z a) s = .next u)) ∧
    (∀ b n, s.track.brake z = some b → b.supervision = .awaiting n →
      let fits := b.hold = .held ↔ inputActive s.layout s.inputs (.feedback z) = true
      (fits → exec (.holdConfirmExpiry z) s = .next (confirmed s)) ∧
      (¬ fits → exec (.holdConfirmExpiry z) s = .next (failed s b))) ∧
    ((∀ b n, s.track.brake z = some b → b.supervision ≠ .awaiting n) → exec (.holdConfirmExpiry z) s = .next s)

/-- The position inputs and the moves of a switch (R126, R129 to R131; log 4, log 5): arrival, loss of position, retry and
failure. A settled switch that loses its position is UNKNOWN with its drives off, SWITCH_LOST tells the reading and whether it
was locked (the codes are the model's, log 12), and a locked one halts the ride. A move serves the SETTING claim of the number
it names that awaits the switch (R101, R102; numbers wrap, log 21). -/
def Obligations.SwitchInputsAndMoves : Prop :=
  ∀ (s : State) (n : SwitchId),
    let arrives := fun (e : Env) (q : Position) (v : Served) (w : Work) => closeEvent e (arriveFor n v
      ((w.modifySwitch n fun x => { x with state := .settled q, attempts := 0, driveStraight := false
                                           driveDiverge := false }).post (servedPorts v) .switchSet (.switch n) (positionCode q)))
    (∀ (i : Position) (a : Bool), let u := s.setInput (.position n i) a
      (inputSeen s.layout s.inputs (.position n i) = a → exec (.switchPositionChange n i a) s = .next u) ∧
      (s.track.switchState n = none ∨ s.track.switchState n = some .unknown ∨ s.track.switchState n = some .failed →
        exec (.switchPositionChange n i a) s = .next u) ∧
      (∀ q, s.track.switchState n = some (.settled q) → inputSeen s.layout s.inputs (.position n i) ≠ a →
        (u.env.positionRead n = some q → exec (.switchPositionChange n i a) s = .next u) ∧
        (u.env.positionRead n ≠ some q → exec (.switchPositionChange n i a) s =
          .next (u.run fun e w => closeEvent e (losePosition e n w)))) ∧
      ∀ q l v, s.track.switchState n = some (.moving q l v) → inputSeen s.layout s.inputs (.position n i) ≠ a →
        (u.env.positionRead n = some q → exec (.switchPositionChange n i a) s =
          .next (u.run fun e w => arrives e q v w)) ∧
        (u.env.positionRead n ≠ some q → exec (.switchPositionChange n i a) s = .next u)) ∧
    (∀ q l v, s.track.switchState n = some (.moving q l v) → exec (.moveArrival n) s =
      .next ((s.showPosition n q).run fun e w => arrives e q v w)) ∧
    ((∀ q l v, s.track.switchState n ≠ some (.moving q l v)) →
      exec (.moveArrival n) s = .next s ∧ exec (.moveLimitExpiry n) s = .next s) ∧
    ∀ (r : Switch) q l v, s.track.switches[n] = some r → r.state = .moving q l v →
      (r.attempts < 2 → exec (.moveLimitExpiry n) s = .next (s.run fun e w => (w.modifySwitch n fun x =>
        { x with
          state := .moving q (((e.layout.switches[n]).map fun y => y.moveLimit * 100).getD 0) v, attempts := r.attempts + 1
          driveStraight := decide (q = .straight), driveDiverge := decide (q = .diverge) }).post (servedPorts v)
        .switchRetry (.switch n) (byteOf (r.attempts + 2)))) ∧
      (2 ≤ r.attempts → exec (.moveLimitExpiry n) s = .next (s.run fun e w => closeEvent e
        (let w1 := w.modifySwitch n fun x =>
            { x with state := .failed, attempts := 3, driveStraight := false, driveDiverge := false }
         (match servedClaim w.toTrack n v with
          | some c => returnToWaiting c w1
          | none => w1).post (servedPorts v) .switchFailed (.switch n) (positionCode q)))) ∧
    (∀ (w : Track) (v : Served) (c : Claim),
      let serves := fun d : Claim => v = .claim d.seq ∧ ∃ ns, d.state = .setting ns ∧ n ∈ ns
      servedClaim w n v = some c ↔ serves c ∧ ∃ as bs, w.claims = as ++ c :: bs ∧ ∀ a ∈ as, ¬ serves a) ∧
    ∀ (e : Env) (w : Work),
      let v := (applyRelease e (w.modifySwitch n fun x => { x with
          state := .unknown, attempts := 0, driveStraight := false, driveDiverge := false })).post
        (0 :: ((w.switches[n]).bind (·.sectionPort)).toList) .switchLost (.switch n)
        (match e.positionRead n with
          | some .straight => 1
          | some .diverge => 2
          | none => 3)
        (if isLocked e w.toTrack n then 1 else 0)
      (isLocked e w.toTrack n = true → w.mode = .operating ∨ w.mode = .standby →
        losePosition e n w = postMode w.mode (.fault .switchLost) (rideHalt e .halted v)) ∧
      (isLocked e w.toTrack n = false ∨ (w.mode ≠ .operating ∧ w.mode ≠ .standby) → losePosition e n w = v)

/-- The timers of zones, trains and claims (R21, R67, R68, R108, R114; an expiry takes effect where its timer runs, log 4;
STALLED carries no detail, log 12), and the occupancy sample (R26; a row takes one at any time, log 4). -/
def Obligations.TimersAndSamples : Prop :=
  (∀ (s : State) (z : ZoneId),
    (∀ t n, s.track.zoneState z = some (.clearing t n) →
      exec (.settleExpiry z) s = .next (s.run fun e w => closeEval e (w.setZone z .clear))) ∧
    ((∀ t n, s.track.zoneState z ≠ some (.clearing t n)) → exec (.settleExpiry z) s = .next s)) ∧
  (∀ (s : State) (t : TrainId), let x := s.track.trains[t]
    (x.state = .standing → x.dwell ≠ none → exec (.dwellExpiry t) s = .next (s.run fun e w =>
      closeEval e (formAtRest e t .auto none (w.modifyTrain t fun x => { x with dwell := none })))) ∧
    (x.state ≠ .standing ∨ x.dwell = none → exec (.dwellExpiry t) s = .next s) ∧
    (∀ z, x.departure ≠ none → x.footprint = [z] → exec (.departureWindowExpiry t) s = .next (s.run fun e w =>
      closeEvent e
        (let w1 := ((removeEntries t 0 w).modifyTrain t fun r =>
            { r with state := .standing, departure := none, ride := r.ride.map fun d => { d with stalled := true } }).post
          [0] .departureStalled (.train t) (byteOf z.val)
         match (e.layout.zones[z]).bind (·.owner) with
         | some p => w1.post [p] .stalled (.train t)
         | none => w1))) ∧
    (x.departure = none → exec (.departureWindowExpiry t) s = .next s) ∧
    (∀ z, x.travel ≠ none → x.footprint.getLast? = some z → exec (.travelLimitExpiry t) s = .next (s.run fun e w =>
      closeEvent e (raiseHalt e .overdue (.zone z) (byteOf t.val) 0xFF (faultZones .overdue [z] w)))) ∧
    (x.travel = none → exec (.travelLimitExpiry t) s = .next s)) ∧
  (∀ (s : State) (k : Claimant),
    (∀ (c : Claim) (g : LegClaim), waitingClaim s.track k = some c → c.body = .leg g →
      exec (.claimWaitExpiry k) s = .next (s.run fun e w => closeEval e (match g.origin with
        | .dispatch p =>
          (withdrawClaim c w).post [0, p] .dispatchExpired (.train g.train) (byteOf g.start.val)
        | _ => withdrawClaim c w))) ∧
    (∀ (c : Claim) (g : SectionClaim), waitingClaim s.track k = some c → c.body = .sectionOf g →
      exec (.claimWaitExpiry k) s = .next (s.run fun e w => closeEvent e
        (((withdrawClaim c w).setSection g.port .none).post [0, g.port] .sectionExpired (.port g.port)))) ∧
    (waitingClaim s.track k = none → exec (.claimWaitExpiry k) s = .next s)) ∧
  ∀ s : State, ∃ t, exec .occupancySample s = .next t ∧ t.sampleDue = false ∧ t.ports = s.ports ∧
    (∀ (z : ZoneId) (r : Zone), s.track.zones[z] = some r → ∃ b : Bool,
      (b = true ↔ (∃ x, r.state = .occupied x) ∨ r.state = .unknown ∨ (∃ k, r.state = .fault k) ∨
        (∃ x n, r.state = .clearing x n) ∨
        (s.layout.stoppableZone z ∧ inputActive s.layout s.inputs (.stop z) = true)) ∧
      t.track.zones[z] = some { r with history := b :: r.history.take 7 }) ∧
    (∀ z : ZoneId, s.track.zones[z] = none → t.track.zones[z] = none) ∧
    { t.track with zones := s.track.zones } = s.track

/-! ### Claims, the arbiter and the faults -/

/-- A formation occasion of a train at rest (R59, R60, R88, R89): no claim outside OPERATING, with a pending claim, with
at-end or stalled set; the route's end recorded; else the claim for the leg that the route engine selects, and the train
CLAIMING. The arrival of a claim (R93, R94): the next sequence number, the list, or the line behind 12 claims. Claims that
leave (R94, R110): the line moves up, and the moves that served them (by number and switch, log 21) serve none. -/
def Obligations.ClaimsFormedAndDropped : Prop :=
  (∀ (e : Env) (t : TrainId) (o : Origin) (wait : Option Nat) (w : Work), let r := w.trains[t]
     let pending := ∃ c ∈ w.claims ++ w.line, c.isLegOf t = true ∧ c.state = .waiting
     (r.ride = none ∨ w.mode ≠ .operating ∨ pending ∨ r.atEnd = true ∨ r.stalled = true → formAtRest e t o wait w = w) ∧
     ∀ d, r.ride = some d → w.mode = .operating → ¬ pending → d.atEnd = false → d.stalled = false →
       (selectStep e.routes[d.route] d.cursor d.frames = none → formAtRest e t o wait w =
         (w.setTrain t { r with state := .standing, ride := some { d with atEnd := true } }).post
           (0 :: (r.rest.bind fun z => (e.layout.zones[z]).bind (·.owner)).toList) .routeEnd (.train t) (byteOf d.cursor.val)) ∧
       ∀ (k : Decision) (a b : RouteStep) (g : Leg), selectStep e.routes[d.route] d.cursor d.frames = some k →
         e.step d.route d.cursor = some a → e.step d.route k.target = some b → legBetween e.layout a.zone b.zone = some g →
         formAtRest e t o wait w = (arriveClaim (.leg { train := t, origin := o, start := g.start, zones := g.zones
                                                        reqs := g.reqs, decision := k }) wait w).setTrain t
           { r with state := .claiming }) ∧
  (∀ (x : ClaimBody) (wait : Option Nat) (w : Work), let v := arriveClaim x wait w
     let c : Claim := { seq := w.nextSeq, body := x, state := .waiting, wait := wait, bypass := 0 }
     (w.claims.length < 12 → v = { w with claims := w.claims ++ [c], nextSeq := w.nextSeq + 1 }) ∧
     (12 ≤ w.claims.length → v = { w with line := w.line ++ [c], nextSeq := w.nextSeq + 1 })) ∧
  ∀ (gone : Claim → Bool) (w : Work), let v := dropClaims gone w
    let rest := (w.claims ++ w.line).filter fun c => !gone c
    let left := fun (n : SwitchId) (k : Byte) => ∃ c ∈ w.claims ++ w.line, gone c = true ∧ c.seq = k ∧
      ∃ ns, c.state = .setting ns ∧ n ∈ ns
    v.claims = rest.take 12 ∧ v.line = rest.drop 12 ∧
    (∀ (n : SwitchId) r q l k, w.switches[n] = some r → r.state = .moving q l (.claim k) → left n k →
      v.switches[n] = some { r with state := .moving q l .none }) ∧
    (∀ n : SwitchId, (∀ r q l k, w.switches[n] = some r → r.state = .moving q l (.claim k) → ¬ left n k) →
      v.switches[n] = w.switches[n]) ∧
    { v with claims := w.claims, line := w.line, switches := w.switches } = w

/-- Leg entries taken out of an authority (R58, R19): their zones CLEAR, and every claim that would begin at a removed
destination gone. A withdrawn claim (R110): a SETTING one with its leg entry; a CLAIMING train without a claim from its rest
zone STANDING. A SETTING claim that returns to WAITING (R102, R103) loses its entry and keeps its place, and its moves serve
no claim. A switch that arrives for a SETTING claim (R101): at the last one the claim is complete and leaves the list. A move
serves the claim of the number it names that awaits its switch (log 21). -/
def Obligations.LegsAndClaimsGivenBack : Prop :=
  (∀ (t : TrainId) (k : Nat) (w : Work), let r := w.trains[t]; let gone := r.authority.drop k; let v := removeEntries t k w
     let ends := fun c : Claim => gone.any fun g => (g.zones.getLast?).any fun z => c.startsAt t z
     v.trains[t] = { r with authority := r.authority.take k } ∧ (∀ u : TrainId, u ≠ t → v.trains[u] = w.trains[u]) ∧
     (∀ z, (∃ g ∈ gone, z ∈ g.zones) → w.zoneState z = some (.reserved t) → v.zoneState z = some .clear) ∧
     (∀ z, (∀ g ∈ gone, z ∉ g.zones) ∨ w.zoneState z ≠ some (.reserved t) → v.zoneState z = w.zoneState z) ∧
     v.claims = ((w.claims ++ w.line).filter fun c => !ends c).take 12 ∧
     v.line = ((w.claims ++ w.line).filter fun c => !ends c).drop 12) ∧
  (∀ (c : Claim) (w : Work),
     let w1 := match c.state, c.body with
       | .setting _, .leg g => removeEntries g.train
           ((w.trains[g.train]).authority.findIdx fun q => decide (q.start = g.start)) w
       | _, _ => w
     let w2 := dropClaims (fun d => decide (d.seq = c.seq) && decide (d.body = c.body)) w1
     (∀ g, c.body = .sectionOf g → withdrawClaim c w = w2) ∧
     ∀ g, c.body = .leg g → let r := w2.trains[g.train]
       let alone := fun z => r.state = .claiming ∧ r.footprint = [z] ∧ ∀ d ∈ w2.claims ++ w2.line, d.startsAt g.train z = false
       (∀ z, alone z → withdrawClaim c w = w2.setTrain g.train { r with state := .standing }) ∧
       ((∀ z, ¬ alone z) → withdrawClaim c w = w2)) ∧
  (∀ (c : Claim) (g : LegClaim) (ns : List SwitchId) (w : Work), c.state = .setting ns → c.body = .leg g →
     let w1 := removeEntries g.train ((w.trains[g.train]).authority.findIdx fun q => decide (q.start = g.start)) w
     let back := fun d : Claim => if d.same c then { d with state := .waiting } else d
     let v := returnToWaiting c w
     v.claims = w1.claims.map back ∧ v.line = w1.line.map back ∧ v.zones = w1.zones ∧ v.trains = w1.trains ∧
     (∀ n ∈ ns, ∀ r q l, w1.switches[n] = some r → r.state = .moving q l (.claim c.seq) →
       v.switches[n] = some { r with state := .moving q l .none }) ∧
     ∀ n : SwitchId, n ∉ ns ∨ (∀ r q l, w1.switches[n] = some r → r.state ≠ .moving q l (.claim c.seq)) →
       v.switches[n] = w1.switches[n]) ∧
  ∀ (n : SwitchId) (w : Work),
    arriveFor n .none w = w ∧ (∀ p, arriveFor n (.port p) w = w) ∧
    ∀ k, let serves := fun c : Claim => c.seq = k ∧ ∃ ns, c.state = .setting ns ∧ n ∈ ns
      ((∀ c ∈ w.claims, ¬ serves c) → arriveFor n (.claim k) w = w) ∧
      ∀ (as bs : List Claim) (c : Claim) (ns : List SwitchId), w.claims = as ++ c :: bs → c.seq = k → c.state = .setting ns →
        n ∈ ns → (∀ a ∈ as, ¬ serves a) →
        ((∀ m ∈ ns, m = n) → arriveFor n (.claim k) w = dropClaims (fun d => d.same c) w) ∧
        ((∃ m ∈ ns, m ≠ n) → arriveFor n (.claim k) w = mapClaims (fun d => if d.same c then
          { d with state := .setting (ns.filter fun m => decide (m ≠ n)) } else d) w)

/-- The grant conditions of a claim when the scan reaches it (R99, R104, R107), and the bypass counts its grant raises
(R106). -/
def Obligations.GrantConditions : Prop :=
  let overlap := fun c d : Claim => (∃ z, z ∈ c.zones ∧ z ∈ d.zones) ∨ ∃ n, n ∈ c.switches ∧ n ∈ d.switches
  (∀ (e : Env) (w : Track) (i : Nat) (c : Claim), grantable e w i c = true ↔
    c.state = .waiting ∧
    (∀ d ∈ w.claims.take i, d.state = .waiting → overlap d c → e.layout.bypassLimit = 0 ∨ d.bypass < e.layout.bypassLimit) ∧
    (∀ g, c.body = .leg g → w.mode = .operating ∧ (∀ z ∈ g.zones, w.zoneState z = some .clear) ∧
      ∀ q ∈ g.reqs, ∃ r, w.switches[q.switch] = some r ∧ r.sectionPort = none ∧
        (r.state = .settled q.position ∨
          ((r.state = .unknown ∨ ∃ x, r.state = .settled x) ∧ isLocked e w q.switch = false))) ∧
    ∀ g, c.body = .sectionOf g → (w.mode = .standby ∨ w.mode = .operating ∨ w.mode = .halted) ∧
      (∀ z ∈ g.zones, w.zoneState z = some .clear ∨ w.zoneState z = some .unknown ∨
        (∃ k, w.zoneState z = some (.fault k)) ∨ ∃ t : TrainId, w.zoneState z = some (.occupied t) ∧
          ((w.trains[t]).state = .standing ∨ (w.trains[t]).state = .claiming ∨ (w.trains[t]).state = .stored)) ∧
      ∀ n ∈ g.switches, ∀ r, w.switches[n] = some r → r.isMoving = false) ∧
  ∀ (i : Nat) (c : Claim) (w : Work), let v := raiseBypass i c w
    v.claims.length = w.claims.length ∧ { v with claims := w.claims } = w ∧
    ∀ j d, w.claims[j]? = some d →
      (j < i → d.state = .waiting → overlap d c → v.claims[j]? = some { d with bypass := min 7 (d.bypass + 1) }) ∧
      (i ≤ j ∨ d.state ≠ .waiting ∨ ¬ overlap d c → v.claims[j]? = some d)

/-- The grant of a LEG claim (R100, R60, R121, R123), in the order of R100: the leg's zones RESERVED and its entry at the end
of the authority; the older bypass counts raised; a move started for each requirement not settled; the claim complete, or
SETTING for those switches; the release rule; the onward claim where the entry is the only one and its target a PASS step,
kept in the entry (the model's own field, log 14); and the notice of a dispatch or a move. -/
def Obligations.LegGrant : Prop :=
  (∀ (e : Env) (i : Nat) (c : Claim) (g : LegClaim) (w : Work), c.body = .leg g →
     let w1 := raiseBypass i c (appendLeg g w)
     let moves := g.reqs.filter fun q => !decide (w1.switchState q.switch = some (.settled q.position))
     let w2 := moves.foldl (fun w q => startMove e q.switch q.position (.claim c.seq) w) w1
     let w3 := if moves = [] then dropClaims (fun d => d.same c) w2
       else mapClaims (fun d => if d.same c then { d with state := .setting (moves.map (·.switch)) } else d) w2
     grant e i c w = postGrant g (onwardAtGrant e g (applyRelease e w3))) ∧
  (∀ (g : LegClaim) (w : Work), let v := appendLeg g w; let r := w.trains[g.train]
     v.trains[g.train] = { r with authority := r.authority ++ [{ start := g.start, zones := g.zones, started := false
                                                                 reqs := g.reqs, target := g.decision.target
                                                                 decision := some g.decision, origin := g.origin
                                                                 onward := false }] } ∧
     (∀ u : TrainId, u ≠ g.train → v.trains[u] = w.trains[u]) ∧
     (∀ z ∈ g.zones, w.zones[z] ≠ none → v.zoneState z = some (.reserved g.train)) ∧
     (∀ z : ZoneId, z ∉ g.zones → v.zones[z] = w.zones[z]) ∧ { v with zones := w.zones, trains := w.trains } = w) ∧
  (∀ (e : Env) (n : SwitchId) (q : Position) (x : Served) (w : Work), let v := startMove e n q x w
     (∀ r l, w.switches[n] = some r → e.layout.switches[n] = some l → v.switches[n] = some { r with
       state := .moving q (l.moveLimit * 100) x, attempts := 0, driveStraight := decide (q = .straight)
       driveDiverge := decide (q = .diverge) }) ∧
     (∀ m : SwitchId, m ≠ n → v.switches[m] = w.switches[m]) ∧ { v with switches := w.switches } = w) ∧
  (∀ (e : Env) (g : LegClaim) (w : Work), let r := w.trains[g.train]
     let occasion := fun (x : LegEntry) (d : Ride) => r.authority = [x] ∧ r.ride = some d ∧
       (e.step d.route g.decision.target).map (·.action) = some .pass
     let formed := fun d : Ride => formClaim e g.train g.decision.target (applyFrameOps d.frames g.decision.ops) .auto none w
     (∀ x d w', occasion x d → formed d = .claim w' → onwardAtGrant e g w = w'.modifyTrain g.train fun r =>
       { r with authority := r.authority.map fun q => { q with onward := true } }) ∧
     (∀ x d, occasion x d → (∀ w', formed d ≠ .claim w') → onwardAtGrant e g w = w) ∧
     ((∀ x d, ¬ occasion x d) → onwardAtGrant e g w = w)) ∧
  ∀ (g : LegClaim) (w : Work) (z : ZoneId), g.zones.getLast? = some z →
    postGrant g w = match g.origin with
      | .dispatch p => w.post [0, p] .dispatchGranted (.train g.train) (byteOf z.val)
      | .move p => w.post [0, p] .moveGranted (.train g.train) (byteOf z.val)
      | .auto => w

/-- The grant of a SECTION claim (R105, R140): the older bypass counts raised; every train in the section's zones MANUAL for
the port, without claims, authority, footprint and timers, a dispatch or move in progress aborted with the cause SECTION
(R121; its code, log 12) and every other claim in its order; the zones HANDED, the switches joined, the claim gone, the record
HELD with every request HELD; the release rule; SECTION_GRANTED with the number of zones. The evaluation (R98; the bound on
its scans is the model's, log 27): from the oldest claim to the youngest, granting on the way, and again after a scan that
granted. The YIELD advisory (R141), judged for every port: asserted, with a YIELD notice on the change, while a WAITING claim
overlaps its section. -/
def Obligations.SectionGrantEvaluationAndYield : Prop :=
  (∀ (e : Env) (i : Nat) (c : Claim) (g : SectionClaim) (w : Work), c.body = .sectionOf g →
     let w1 := raiseBypass i c w
     let w2 := (trainIds.filter fun t => g.zones.any fun z => decide (w1.zoneState z = some (.occupied t))).foldl
       (fun w t => makeManual g.port t w) w1
     let w3 := g.zones.foldl (fun w z => w.setZone z (.handed g.port)) w2
     let w4 := g.switches.foldl (fun w n => w.modifySwitch n fun s => { s with sectionPort := some g.port }) w3
     let w5 := (dropClaims (fun d => d.same c) w4).setSection g.port (.held
       { zones := g.zones, switches := g.switches, yield := false
         requests := (g.zones.filter fun z => (e.layout.zones[z]).any fun r => decide (r.kind ≠ .run)).map fun z => (z, .held) })
     grant e i c w = applyRelease e
       (w5.post [0, g.port] .sectionGranted (.port g.port) (byteOf g.zones.length))) ∧
  (∀ (p : PortId) (t : TrainId) (w : Work), let r := w.trains[t]; let v := makeManual p t w
     v.trains[t] = { r with state := .manual, footprint := [], authority := [], sectionPort := some p, dwell := none
                            departure := none, travel := none } ∧
     (∀ u : TrainId, u ≠ t → v.trains[u] = w.trains[u]) ∧
     v.claims = ((w.claims ++ w.line).filter fun c => !c.isLegOf t).take 12 ∧
     v.line = ((w.claims ++ w.line).filter fun c => !c.isLegOf t).drop 12 ∧ v.posts = w.posts ++ w.abortPosts t 6 ∧
     (∀ z, w.zoneState z ≠ some (.reserved t) → v.zoneState z = w.zoneState z) ∧
     (∀ z, v.zoneState z = w.zoneState z ∨ v.zoneState z = some .clear) ∧
     { v with zones := w.zones, trains := w.trains, claims := w.claims, line := w.line, switches := w.switches
              posts := w.posts } = w) ∧
  (∀ (e : Env) (w : Work), evaluate e w = judgeYield (scanClaims e 1024 0 false w)) ∧
  (∀ (e : Env) (k i : Nat) (g : Bool) (w : Work),
     (w.claims.length ≤ i → scanClaims e (k + 1) i g w = if g then scanClaims e k 0 false w else w) ∧
     ∀ c, w.claims[i]? = some c →
       (grantable e w.toTrack i c = false → scanClaims e (k + 1) i g w = scanClaims e k (i + 1) g w) ∧
       (grantable e w.toTrack i c = true → let w' := grant e i c w
         ∃ j, scanClaims e (k + 1) i g w = scanClaims e k j true w' ∧
           (∀ d ∈ w'.claims.take j, ∃ x ∈ w.claims.take (i + 1), x.same d = true) ∧
           ∀ d, w'.claims[j]? = some d → ∀ x ∈ w.claims.take (i + 1), x.same d = false)) ∧
  (∀ w : Work, judgeYield w = judgeYieldOf 3 (judgeYieldOf 2 (judgeYieldOf 1 (judgeYieldOf 0 w)))) ∧
  ∀ (p : PortId) (w : Work),
    ((∀ h, w.sections[p] ≠ .held h) → judgeYieldOf p w = w) ∧
    ∀ h, w.sections[p] = .held h →
      let meets := fun c : Claim => c.state = .waiting ∧
        ((∃ z ∈ c.zones, z ∈ h.zones) ∨ ∃ n ∈ c.switches, n ∈ h.switches)
      ((∀ c ∈ w.claims, ¬ meets c) → judgeYieldOf p w = w.setSection p (.held { h with yield := false })) ∧
      ∀ (as bs : List Claim) (c : Claim), w.claims = as ++ c :: bs → meets c → (∀ a ∈ as, ¬ meets a) →
        (h.yield = true → judgeYieldOf p w = w) ∧
        (h.yield = false → judgeYieldOf p w =
          (w.setSection p (.held { h with yield := true })).post [p] .yield (.port p) c.seq)

/-- The release rule applied afresh (R28 to R30, R65): every hold is RELEASED in the two cases of R28 and HELD in every other;
a hold that changes is AWAITING with the full confirm time, one that does not keeps its supervision; a STANDING or CLAIMING
train at rest whose zone opens for it is CLEARED with the zone's departure window; nothing else changes. -/
def Obligations.ReleaseEffects : Prop :=
  ∀ (e : Env) (w : Work), let v := applyRelease e w
    (∀ z : ZoneId, w.zones[z] = none → v.zones[z] = none) ∧
    (∀ (z : ZoneId) (r : Zone), w.zones[z] = some r → r.brake = none → v.zones[z] = some r) ∧
    (∀ (z : ZoneId) (r : Zone) (b : Brake), w.zones[z] = some r → r.brake = some b → ∃ h : Hold,
      (h = .released ↔ w.trainMayPass z ∨ w.masterReleases z) ∧
      (b.hold = h → v.zones[z] = some r) ∧
      (b.hold ≠ h → v.zones[z] =
        some { r with brake := some { hold := h, supervision := .awaiting (e.layout.holdConfirm * 50) } })) ∧
    (∀ t : TrainId, let r := w.trains[t]
      let opens := fun z => (r.state = .standing ∨ r.state = .claiming) ∧ r.footprint = [z] ∧ w.trainMayPass z
      (∀ z l n, opens z → e.layout.zones[z] = some l → l.window = some n →
        v.trains[t] = { r with state := .cleared, departure := some (n * 100) }) ∧
      ((∀ z, ¬ opens z) → v.trains[t] = r)) ∧
    { v with zones := w.zones, trains := w.trains } = w

/-- A fault that names a zone (R22): FAULT where no train is concerned, no change at a zone that is FAULT or HANDED, and a
train concerned is LOST with its other zones UNKNOWN and its claims gone, a dispatch or move in progress aborted with the cause
LOST (R121; its code, log 12). -/
def Obligations.FaultOutcomes : Prop :=
  ∀ (k : ZoneFault) (z : ZoneId) (w : Work), let v := faultZones k [z] w
    (w.zoneState z = some .clear ∨ w.zoneState z = some .unknown ∨ (∃ t n, w.zoneState z = some (.clearing t n)) →
      v = w.setZone z (.fault k)) ∧
    (w.zoneState z = none ∨ (∃ x, w.zoneState z = some (.fault x)) ∨ (∃ p, w.zoneState z = some (.handed p)) → v = w) ∧
    ∀ t : TrainId, w.zoneState z = some (.reserved t) ∨ w.zoneState z = some (.occupied t) →
      let x := w.trains[t]
      v.zoneState z = some (.fault k) ∧
      v.trains[t] = { x with state := .lost, footprint := [], authority := [], sectionPort := none, dwell := none
                             departure := none, travel := none, ride := x.ride.map fun d => { d with stalled := false } } ∧
      (∀ u : TrainId, u ≠ t → v.trains[u] = w.trains[u]) ∧
      (∀ y, y ≠ z → y ∈ x.footprint ++ x.ahead → w.zones[y] ≠ none → v.zoneState y = some .unknown) ∧
      (∀ y, y ≠ z → y ∉ x.footprint ++ x.ahead → v.zoneState y = w.zoneState y) ∧
      v.claims ++ v.line = (w.claims ++ w.line).filter (fun c => !c.isLegOf t) ∧ v.posts = w.posts ++ w.abortPosts t 8

/-- Frames: an event on the track leaves the stores, the time, the waiting commands and all of every port but its notices as
they were; so does every command that orders something on the track. -/
def Obligations.TrackEventsFrame : Prop :=
  (∀ (s : State) (i : Instr), i.command = none → i ≠ .coldStart → i ≠ .warmStart → (∀ p b, i ≠ .commandFrame p b) →
    (∀ p n, i ≠ .readFrame p n) → (∀ p n, i ≠ .repeatFrame p n) → (∀ p, i ≠ .leaseExpiry p) →
    ∃ t, exec i s = .next t ∧ t.layout = s.layout ∧ t.routes = s.routes ∧ t.time = s.time ∧ t.choices = s.choices ∧
      t.pending = s.pending ∧
      ∀ p : PortId, ∃ n m o, t.ports[p] = { s.ports[p] with notices := n, summary := m, overflow := o }) ∧
  ∀ (s : State) (p : PortId) (mark : Bool) (c : Command),
    (match c with
      | .setMode _ | .placeTrain _ _ _ _ | .assignRoute _ _ _ | .retireTrain _ _ | .assertZone _ _ | .proceed _
      | .breakLoop _ | .resetSwitch _ | .dispatch _ | .cancelDispatch _ | .move _ | .requestSection _ _ | .cancelSection
      | .returnSection _ | .setHold _ _ | .moveSwitch _ _ => True
      | _ => False) →
    sameButTrack s (perform p mark c s).1

/-! ### Invariants -/

/-- The machine after reset has every property below. -/
def Obligations.ResetHasTheInvariants : Prop :=
  State.reset.track.holdsFollow ∧ State.reset.queuesBounded ∧ State.reset.waitsForRoom ∧ State.reset.track.listBounded ∧
  State.reset.switchesSafe ∧ State.reset.estopAgrees ∧ State.reset.modeAgrees ∧ State.reset.safe ∧ State.reset.trackAgrees

/-- Every step keeps every hold as the release rule gives it: RELEASED in the two cases of R28 and HELD in every other. -/
def Obligations.HoldsFollowTheReleaseRule : Prop := Kept fun s => s.track.holdsFollow

/-- Every step keeps the queues within their bounds, and a command waiting only while its reply queue is full (R167, R171).
Every step keeps the claim list within 12 claims, and the line empty while the list has room (R93, R94). -/
def Obligations.QueuesAndClaimListStayBounded : Prop :=
  Kept (fun s => s.queuesBounded ∧ s.waitsForRoom) ∧ Kept fun s => s.track.listBounded

/-- Every step keeps the drives on for the target of a move alone, and no switch MOVING in ESTOPPED (R125, R134). Every step
keeps the mode ESTOPPED while an ESTOP line is active as last delivered, and the mode in agreement with the commit state
(R149, R156, Table 10-1). -/
def Obligations.DrivesAndModeStaySafe : Prop :=
  Kept State.switchesSafe ∧ Kept fun s => s.estopAgrees ∧ s.modeAgrees

/-- Every step keeps the holds, the drives and the mode safe together; and in every such state a hold line is energised only
in the two cases of R28, and while an ESTOP line is active as last delivered every hold line is HELD and every drive is off
(R28, R125, R156, R157). -/
def Obligations.BrakesAndDrivesStaySafe : Prop :=
  Kept State.safe ∧
  ∀ s : State, s.safe →
    (∀ z, s.track.holdLine z = true → s.track.trainMayPass z ∨ s.track.masterReleases z) ∧
    ((∃ k, inputSeen s.layout s.inputs (.estop k) = true) →
      (∀ z, s.track.holdLine z = false) ∧ ∀ n, s.track.driveLines n = (false, false))

/-- Every step keeps zone states, footprints and authorities in agreement, with what keeps them so; and in every such state no
zone is in the footprint or the authority of two trains (R18, R57, R58). -/
def Obligations.NoTwoTrainsShareAZone : Prop :=
  Kept State.trackAgrees ∧ ∀ s : State, s.trackAgrees → s.track.noneShared

/-- The bytes of a command fit a frame, and are read back as that command (Table 11-2, R171, R179, R180; the layouts of
PLACE_TRAIN, REQUEST_SECTION and RETURN_SECTION are the model's, log 10). -/
def Obligations.CommandBytesReadBack : Prop :=
  ∀ c : Command, c.wf = true → (∀ m, c = .setMask m → m < 128) →
    (commandBytes c).length ≤ 30 ∧ (∀ b ∈ commandBytes c, b < 256) ∧ decodeCommand (commandCode c) (commandBytes c) = some c
end

