-- ==== Sys2Proof/Laws/State.lean ====
section
/-! SUPPORT. One lemma per field per update of `State` and `Work`, each true by computation, so that no proof unfolds a record
update. -/

namespace Sys2Proof.Machine

/-! ### Updates of the state -/

@[simp] theorem State.modifyPort_layout (s : State) (p : PortId) (f : Port → Port) : (s.modifyPort p f).layout = s.layout := rfl
@[simp] theorem State.modifyPort_routes (s : State) (p : PortId) (f : Port → Port) : (s.modifyPort p f).routes = s.routes := rfl
@[simp] theorem State.modifyPort_inputs (s : State) (p : PortId) (f : Port → Port) : (s.modifyPort p f).inputs = s.inputs := rfl
@[simp] theorem State.modifyPort_track (s : State) (p : PortId) (f : Port → Port) : (s.modifyPort p f).track = s.track := rfl
@[simp] theorem State.modifyPort_time (s : State) (p : PortId) (f : Port → Port) : (s.modifyPort p f).time = s.time := rfl
@[simp] theorem State.modifyPort_sampleDue (s : State) (p : PortId) (f : Port → Port) : (s.modifyPort p f).sampleDue = s.sampleDue := rfl
@[simp] theorem State.modifyPort_choices (s : State) (p : PortId) (f : Port → Port) : (s.modifyPort p f).choices = s.choices := rfl
@[simp] theorem State.modifyPort_pending (s : State) (p : PortId) (f : Port → Port) : (s.modifyPort p f).pending = s.pending := rfl

@[simp] theorem State.setInput_layout (s : State) (i : InputId) (a : Bool) : (s.setInput i a).layout = s.layout := rfl
@[simp] theorem State.setInput_routes (s : State) (i : InputId) (a : Bool) : (s.setInput i a).routes = s.routes := rfl
@[simp] theorem State.setInput_track (s : State) (i : InputId) (a : Bool) : (s.setInput i a).track = s.track := rfl
@[simp] theorem State.setInput_ports (s : State) (i : InputId) (a : Bool) : (s.setInput i a).ports = s.ports := rfl
@[simp] theorem State.setInput_time (s : State) (i : InputId) (a : Bool) : (s.setInput i a).time = s.time := rfl
@[simp] theorem State.setInput_sampleDue (s : State) (i : InputId) (a : Bool) : (s.setInput i a).sampleDue = s.sampleDue := rfl
@[simp] theorem State.setInput_choices (s : State) (i : InputId) (a : Bool) : (s.setInput i a).choices = s.choices := rfl
@[simp] theorem State.setInput_pending (s : State) (i : InputId) (a : Bool) : (s.setInput i a).pending = s.pending := rfl

@[simp] theorem State.setRoute_layout (s : State) (r : RouteId) (x : Route) : (s.setRoute r x).layout = s.layout := rfl
@[simp] theorem State.setRoute_inputs (s : State) (r : RouteId) (x : Route) : (s.setRoute r x).inputs = s.inputs := rfl
@[simp] theorem State.setRoute_track (s : State) (r : RouteId) (x : Route) : (s.setRoute r x).track = s.track := rfl
@[simp] theorem State.setRoute_ports (s : State) (r : RouteId) (x : Route) : (s.setRoute r x).ports = s.ports := rfl
@[simp] theorem State.setRoute_time (s : State) (r : RouteId) (x : Route) : (s.setRoute r x).time = s.time := rfl
@[simp] theorem State.setRoute_sampleDue (s : State) (r : RouteId) (x : Route) : (s.setRoute r x).sampleDue = s.sampleDue := rfl
@[simp] theorem State.setRoute_choices (s : State) (r : RouteId) (x : Route) : (s.setRoute r x).choices = s.choices := rfl
@[simp] theorem State.setRoute_pending (s : State) (r : RouteId) (x : Route) : (s.setRoute r x).pending = s.pending := rfl

@[simp] theorem State.takeRoles_layout (s : State) (r : Vector Role 4) : (s.takeRoles r).layout = s.layout := rfl
@[simp] theorem State.takeRoles_routes (s : State) (r : Vector Role 4) : (s.takeRoles r).routes = s.routes := rfl
@[simp] theorem State.takeRoles_inputs (s : State) (r : Vector Role 4) : (s.takeRoles r).inputs = s.inputs := rfl
@[simp] theorem State.takeRoles_track (s : State) (r : Vector Role 4) : (s.takeRoles r).track = s.track := rfl
@[simp] theorem State.takeRoles_time (s : State) (r : Vector Role 4) : (s.takeRoles r).time = s.time := rfl
@[simp] theorem State.takeRoles_sampleDue (s : State) (r : Vector Role 4) : (s.takeRoles r).sampleDue = s.sampleDue := rfl
@[simp] theorem State.takeRoles_choices (s : State) (r : Vector Role 4) : (s.takeRoles r).choices = s.choices := rfl
@[simp] theorem State.takeRoles_pending (s : State) (r : Vector Role 4) : (s.takeRoles r).pending = s.pending := rfl

@[simp] theorem State.deliver_layout (s : State) (o : List Post) : (s.deliver o).layout = s.layout := rfl
@[simp] theorem State.deliver_routes (s : State) (o : List Post) : (s.deliver o).routes = s.routes := rfl
@[simp] theorem State.deliver_inputs (s : State) (o : List Post) : (s.deliver o).inputs = s.inputs := rfl
@[simp] theorem State.deliver_track (s : State) (o : List Post) : (s.deliver o).track = s.track := rfl
@[simp] theorem State.deliver_time (s : State) (o : List Post) : (s.deliver o).time = s.time := rfl
@[simp] theorem State.deliver_sampleDue (s : State) (o : List Post) : (s.deliver o).sampleDue = s.sampleDue := rfl
@[simp] theorem State.deliver_choices (s : State) (o : List Post) : (s.deliver o).choices = s.choices := rfl
@[simp] theorem State.deliver_pending (s : State) (o : List Post) : (s.deliver o).pending = s.pending := rfl

@[simp] theorem State.put_layout (s : State) (w : Work) : (s.put w).layout = s.layout := rfl
@[simp] theorem State.put_routes (s : State) (w : Work) : (s.put w).routes = s.routes := rfl
@[simp] theorem State.put_inputs (s : State) (w : Work) : (s.put w).inputs = s.inputs := rfl
@[simp] theorem State.put_time (s : State) (w : Work) : (s.put w).time = s.time := rfl
@[simp] theorem State.put_sampleDue (s : State) (w : Work) : (s.put w).sampleDue = s.sampleDue := rfl
@[simp] theorem State.put_choices (s : State) (w : Work) : (s.put w).choices = s.choices := rfl
@[simp] theorem State.put_pending (s : State) (w : Work) : (s.put w).pending = s.pending := rfl

@[simp] theorem State.run_layout (s : State) (f : Env → Work → Work) : (s.run f).layout = s.layout := rfl
@[simp] theorem State.run_routes (s : State) (f : Env → Work → Work) : (s.run f).routes = s.routes := rfl
@[simp] theorem State.run_inputs (s : State) (f : Env → Work → Work) : (s.run f).inputs = s.inputs := rfl
@[simp] theorem State.run_time (s : State) (f : Env → Work → Work) : (s.run f).time = s.time := rfl
@[simp] theorem State.run_sampleDue (s : State) (f : Env → Work → Work) : (s.run f).sampleDue = s.sampleDue := rfl
@[simp] theorem State.run_choices (s : State) (f : Env → Work → Work) : (s.run f).choices = s.choices := rfl
@[simp] theorem State.run_pending (s : State) (f : Env → Work → Work) : (s.run f).pending = s.pending := rfl

@[simp] theorem replied_layout (p : PortId) (c : Byte) (b : ReplyBody) (s : State) : (replied p c b s).layout = s.layout := rfl
@[simp] theorem replied_routes (p : PortId) (c : Byte) (b : ReplyBody) (s : State) : (replied p c b s).routes = s.routes := rfl
@[simp] theorem replied_inputs (p : PortId) (c : Byte) (b : ReplyBody) (s : State) : (replied p c b s).inputs = s.inputs := rfl
@[simp] theorem replied_track (p : PortId) (c : Byte) (b : ReplyBody) (s : State) : (replied p c b s).track = s.track := rfl
@[simp] theorem replied_time (p : PortId) (c : Byte) (b : ReplyBody) (s : State) : (replied p c b s).time = s.time := rfl
@[simp] theorem replied_sampleDue (p : PortId) (c : Byte) (b : ReplyBody) (s : State) : (replied p c b s).sampleDue = s.sampleDue := rfl
@[simp] theorem replied_choices (p : PortId) (c : Byte) (b : ReplyBody) (s : State) : (replied p c b s).choices = s.choices := rfl
@[simp] theorem replied_pending (p : PortId) (c : Byte) (b : ReplyBody) (s : State) : (replied p c b s).pending = s.pending := rfl

@[simp] theorem Layout.path_nil (l : Layout) (a : ZoneId) : l.path a [] := trivial
@[simp] theorem Layout.path_cons (l : Layout) (a : ZoneId) (x : ZoneId × Option Requirement) (xs : List (ZoneId × Option Requirement)) :
    l.path a (x :: xs) ↔ l.passage a x.1 x.2 ∧ l.path x.1 xs := Iff.rfl

@[simp] theorem State.put_track (s : State) (w : Work) : (s.put w).track = w.toTrack := rfl
@[simp] theorem State.run_track (s : State) (f : Env → Work → Work) : (s.run f).track = (f s.env s.work).toTrack := rfl
@[simp] theorem State.work_toTrack (s : State) : s.work.toTrack = s.track := rfl
@[simp] theorem State.work_posts (s : State) : s.work.posts = [] := rfl
@[simp] theorem State.env_layout (s : State) : s.env.layout = s.layout := rfl
@[simp] theorem State.env_routes (s : State) : s.env.routes = s.routes := rfl
@[simp] theorem State.env_inputs (s : State) : s.env.inputs = s.inputs := rfl

/-! ### Updates of the working track -/

@[simp] theorem Work.post_mode (w : Work) (ps : List PortId) (n : NoticeName) (x : Subject) (a b : Byte) : (w.post ps n x a b).mode = w.mode := rfl
@[simp] theorem Work.post_estopClear (w : Work) (ps : List PortId) (n : NoticeName) (x : Subject) (a b : Byte) : (w.post ps n x a b).estopClear = w.estopClear := rfl
@[simp] theorem Work.post_zones (w : Work) (ps : List PortId) (n : NoticeName) (x : Subject) (a b : Byte) : (w.post ps n x a b).zones = w.zones := rfl
@[simp] theorem Work.post_trackers (w : Work) (ps : List PortId) (n : NoticeName) (x : Subject) (a b : Byte) : (w.post ps n x a b).trackers = w.trackers := rfl
@[simp] theorem Work.post_trains (w : Work) (ps : List PortId) (n : NoticeName) (x : Subject) (a b : Byte) : (w.post ps n x a b).trains = w.trains := rfl
@[simp] theorem Work.post_claims (w : Work) (ps : List PortId) (n : NoticeName) (x : Subject) (a b : Byte) : (w.post ps n x a b).claims = w.claims := rfl
@[simp] theorem Work.post_line (w : Work) (ps : List PortId) (n : NoticeName) (x : Subject) (a b : Byte) : (w.post ps n x a b).line = w.line := rfl
@[simp] theorem Work.post_nextSeq (w : Work) (ps : List PortId) (n : NoticeName) (x : Subject) (a b : Byte) : (w.post ps n x a b).nextSeq = w.nextSeq := rfl
@[simp] theorem Work.post_switches (w : Work) (ps : List PortId) (n : NoticeName) (x : Subject) (a b : Byte) : (w.post ps n x a b).switches = w.switches := rfl
@[simp] theorem Work.post_sections (w : Work) (ps : List PortId) (n : NoticeName) (x : Subject) (a b : Byte) : (w.post ps n x a b).sections = w.sections := rfl

@[simp] theorem Work.setZone_mode (w : Work) (z : ZoneId) (x : ZoneState) : (w.setZone z x).mode = w.mode := rfl
@[simp] theorem Work.setZone_estopClear (w : Work) (z : ZoneId) (x : ZoneState) : (w.setZone z x).estopClear = w.estopClear := rfl
@[simp] theorem Work.setZone_trackers (w : Work) (z : ZoneId) (x : ZoneState) : (w.setZone z x).trackers = w.trackers := rfl
@[simp] theorem Work.setZone_trains (w : Work) (z : ZoneId) (x : ZoneState) : (w.setZone z x).trains = w.trains := rfl
@[simp] theorem Work.setZone_claims (w : Work) (z : ZoneId) (x : ZoneState) : (w.setZone z x).claims = w.claims := rfl
@[simp] theorem Work.setZone_line (w : Work) (z : ZoneId) (x : ZoneState) : (w.setZone z x).line = w.line := rfl
@[simp] theorem Work.setZone_nextSeq (w : Work) (z : ZoneId) (x : ZoneState) : (w.setZone z x).nextSeq = w.nextSeq := rfl
@[simp] theorem Work.setZone_switches (w : Work) (z : ZoneId) (x : ZoneState) : (w.setZone z x).switches = w.switches := rfl
@[simp] theorem Work.setZone_sections (w : Work) (z : ZoneId) (x : ZoneState) : (w.setZone z x).sections = w.sections := rfl
@[simp] theorem Work.setZone_posts (w : Work) (z : ZoneId) (x : ZoneState) : (w.setZone z x).posts = w.posts := rfl

@[simp] theorem Work.setSupervision_mode (w : Work) (z : ZoneId) (x : Supervision) : (w.setSupervision z x).mode = w.mode := rfl
@[simp] theorem Work.setSupervision_estopClear (w : Work) (z : ZoneId) (x : Supervision) : (w.setSupervision z x).estopClear = w.estopClear := rfl
@[simp] theorem Work.setSupervision_trackers (w : Work) (z : ZoneId) (x : Supervision) : (w.setSupervision z x).trackers = w.trackers := rfl
@[simp] theorem Work.setSupervision_trains (w : Work) (z : ZoneId) (x : Supervision) : (w.setSupervision z x).trains = w.trains := rfl
@[simp] theorem Work.setSupervision_claims (w : Work) (z : ZoneId) (x : Supervision) : (w.setSupervision z x).claims = w.claims := rfl
@[simp] theorem Work.setSupervision_line (w : Work) (z : ZoneId) (x : Supervision) : (w.setSupervision z x).line = w.line := rfl
@[simp] theorem Work.setSupervision_nextSeq (w : Work) (z : ZoneId) (x : Supervision) : (w.setSupervision z x).nextSeq = w.nextSeq := rfl
@[simp] theorem Work.setSupervision_switches (w : Work) (z : ZoneId) (x : Supervision) : (w.setSupervision z x).switches = w.switches := rfl
@[simp] theorem Work.setSupervision_sections (w : Work) (z : ZoneId) (x : Supervision) : (w.setSupervision z x).sections = w.sections := rfl
@[simp] theorem Work.setSupervision_posts (w : Work) (z : ZoneId) (x : Supervision) : (w.setSupervision z x).posts = w.posts := rfl

@[simp] theorem Work.setTracker_mode (w : Work) (z : ZoneId) (x : Tracker) : (w.setTracker z x).mode = w.mode := rfl
@[simp] theorem Work.setTracker_estopClear (w : Work) (z : ZoneId) (x : Tracker) : (w.setTracker z x).estopClear = w.estopClear := rfl
@[simp] theorem Work.setTracker_zones (w : Work) (z : ZoneId) (x : Tracker) : (w.setTracker z x).zones = w.zones := rfl
@[simp] theorem Work.setTracker_trains (w : Work) (z : ZoneId) (x : Tracker) : (w.setTracker z x).trains = w.trains := rfl
@[simp] theorem Work.setTracker_claims (w : Work) (z : ZoneId) (x : Tracker) : (w.setTracker z x).claims = w.claims := rfl
@[simp] theorem Work.setTracker_line (w : Work) (z : ZoneId) (x : Tracker) : (w.setTracker z x).line = w.line := rfl
@[simp] theorem Work.setTracker_nextSeq (w : Work) (z : ZoneId) (x : Tracker) : (w.setTracker z x).nextSeq = w.nextSeq := rfl
@[simp] theorem Work.setTracker_switches (w : Work) (z : ZoneId) (x : Tracker) : (w.setTracker z x).switches = w.switches := rfl
@[simp] theorem Work.setTracker_sections (w : Work) (z : ZoneId) (x : Tracker) : (w.setTracker z x).sections = w.sections := rfl
@[simp] theorem Work.setTracker_posts (w : Work) (z : ZoneId) (x : Tracker) : (w.setTracker z x).posts = w.posts := rfl

@[simp] theorem Work.setTrain_mode (w : Work) (t : TrainId) (x : Train) : (w.setTrain t x).mode = w.mode := rfl
@[simp] theorem Work.setTrain_estopClear (w : Work) (t : TrainId) (x : Train) : (w.setTrain t x).estopClear = w.estopClear := rfl
@[simp] theorem Work.setTrain_zones (w : Work) (t : TrainId) (x : Train) : (w.setTrain t x).zones = w.zones := rfl
@[simp] theorem Work.setTrain_trackers (w : Work) (t : TrainId) (x : Train) : (w.setTrain t x).trackers = w.trackers := rfl
@[simp] theorem Work.setTrain_claims (w : Work) (t : TrainId) (x : Train) : (w.setTrain t x).claims = w.claims := rfl
@[simp] theorem Work.setTrain_line (w : Work) (t : TrainId) (x : Train) : (w.setTrain t x).line = w.line := rfl
@[simp] theorem Work.setTrain_nextSeq (w : Work) (t : TrainId) (x : Train) : (w.setTrain t x).nextSeq = w.nextSeq := rfl
@[simp] theorem Work.setTrain_switches (w : Work) (t : TrainId) (x : Train) : (w.setTrain t x).switches = w.switches := rfl
@[simp] theorem Work.setTrain_sections (w : Work) (t : TrainId) (x : Train) : (w.setTrain t x).sections = w.sections := rfl
@[simp] theorem Work.setTrain_posts (w : Work) (t : TrainId) (x : Train) : (w.setTrain t x).posts = w.posts := rfl

@[simp] theorem Work.modifyTrain_mode (w : Work) (t : TrainId) (f : Train → Train) : (w.modifyTrain t f).mode = w.mode := rfl
@[simp] theorem Work.modifyTrain_estopClear (w : Work) (t : TrainId) (f : Train → Train) : (w.modifyTrain t f).estopClear = w.estopClear := rfl
@[simp] theorem Work.modifyTrain_zones (w : Work) (t : TrainId) (f : Train → Train) : (w.modifyTrain t f).zones = w.zones := rfl
@[simp] theorem Work.modifyTrain_trackers (w : Work) (t : TrainId) (f : Train → Train) : (w.modifyTrain t f).trackers = w.trackers := rfl
@[simp] theorem Work.modifyTrain_claims (w : Work) (t : TrainId) (f : Train → Train) : (w.modifyTrain t f).claims = w.claims := rfl
@[simp] theorem Work.modifyTrain_line (w : Work) (t : TrainId) (f : Train → Train) : (w.modifyTrain t f).line = w.line := rfl
@[simp] theorem Work.modifyTrain_nextSeq (w : Work) (t : TrainId) (f : Train → Train) : (w.modifyTrain t f).nextSeq = w.nextSeq := rfl
@[simp] theorem Work.modifyTrain_switches (w : Work) (t : TrainId) (f : Train → Train) : (w.modifyTrain t f).switches = w.switches := rfl
@[simp] theorem Work.modifyTrain_sections (w : Work) (t : TrainId) (f : Train → Train) : (w.modifyTrain t f).sections = w.sections := rfl
@[simp] theorem Work.modifyTrain_posts (w : Work) (t : TrainId) (f : Train → Train) : (w.modifyTrain t f).posts = w.posts := rfl

@[simp] theorem Work.modifySwitch_mode (w : Work) (n : SwitchId) (f : Switch → Switch) : (w.modifySwitch n f).mode = w.mode := rfl
@[simp] theorem Work.modifySwitch_estopClear (w : Work) (n : SwitchId) (f : Switch → Switch) : (w.modifySwitch n f).estopClear = w.estopClear := rfl
@[simp] theorem Work.modifySwitch_zones (w : Work) (n : SwitchId) (f : Switch → Switch) : (w.modifySwitch n f).zones = w.zones := rfl
@[simp] theorem Work.modifySwitch_trackers (w : Work) (n : SwitchId) (f : Switch → Switch) : (w.modifySwitch n f).trackers = w.trackers := rfl
@[simp] theorem Work.modifySwitch_trains (w : Work) (n : SwitchId) (f : Switch → Switch) : (w.modifySwitch n f).trains = w.trains := rfl
@[simp] theorem Work.modifySwitch_claims (w : Work) (n : SwitchId) (f : Switch → Switch) : (w.modifySwitch n f).claims = w.claims := rfl
@[simp] theorem Work.modifySwitch_line (w : Work) (n : SwitchId) (f : Switch → Switch) : (w.modifySwitch n f).line = w.line := rfl
@[simp] theorem Work.modifySwitch_nextSeq (w : Work) (n : SwitchId) (f : Switch → Switch) : (w.modifySwitch n f).nextSeq = w.nextSeq := rfl
@[simp] theorem Work.modifySwitch_sections (w : Work) (n : SwitchId) (f : Switch → Switch) : (w.modifySwitch n f).sections = w.sections := rfl
@[simp] theorem Work.modifySwitch_posts (w : Work) (n : SwitchId) (f : Switch → Switch) : (w.modifySwitch n f).posts = w.posts := rfl

@[simp] theorem Work.setSection_mode (w : Work) (p : PortId) (x : Section) : (w.setSection p x).mode = w.mode := rfl
@[simp] theorem Work.setSection_estopClear (w : Work) (p : PortId) (x : Section) : (w.setSection p x).estopClear = w.estopClear := rfl
@[simp] theorem Work.setSection_zones (w : Work) (p : PortId) (x : Section) : (w.setSection p x).zones = w.zones := rfl
@[simp] theorem Work.setSection_trackers (w : Work) (p : PortId) (x : Section) : (w.setSection p x).trackers = w.trackers := rfl
@[simp] theorem Work.setSection_trains (w : Work) (p : PortId) (x : Section) : (w.setSection p x).trains = w.trains := rfl
@[simp] theorem Work.setSection_claims (w : Work) (p : PortId) (x : Section) : (w.setSection p x).claims = w.claims := rfl
@[simp] theorem Work.setSection_line (w : Work) (p : PortId) (x : Section) : (w.setSection p x).line = w.line := rfl
@[simp] theorem Work.setSection_nextSeq (w : Work) (p : PortId) (x : Section) : (w.setSection p x).nextSeq = w.nextSeq := rfl
@[simp] theorem Work.setSection_switches (w : Work) (p : PortId) (x : Section) : (w.setSection p x).switches = w.switches := rfl
@[simp] theorem Work.setSection_posts (w : Work) (p : PortId) (x : Section) : (w.setSection p x).posts = w.posts := rfl

@[simp] theorem Work.setClaims_mode (w : Work) (cs : List Claim) : (w.setClaims cs).mode = w.mode := rfl
@[simp] theorem Work.setClaims_estopClear (w : Work) (cs : List Claim) : (w.setClaims cs).estopClear = w.estopClear := rfl
@[simp] theorem Work.setClaims_zones (w : Work) (cs : List Claim) : (w.setClaims cs).zones = w.zones := rfl
@[simp] theorem Work.setClaims_trackers (w : Work) (cs : List Claim) : (w.setClaims cs).trackers = w.trackers := rfl
@[simp] theorem Work.setClaims_trains (w : Work) (cs : List Claim) : (w.setClaims cs).trains = w.trains := rfl
@[simp] theorem Work.setClaims_nextSeq (w : Work) (cs : List Claim) : (w.setClaims cs).nextSeq = w.nextSeq := rfl
@[simp] theorem Work.setClaims_switches (w : Work) (cs : List Claim) : (w.setClaims cs).switches = w.switches := rfl
@[simp] theorem Work.setClaims_sections (w : Work) (cs : List Claim) : (w.setClaims cs).sections = w.sections := rfl
@[simp] theorem Work.setClaims_posts (w : Work) (cs : List Claim) : (w.setClaims cs).posts = w.posts := rfl

@[simp] theorem mapClaims_mode (f : Claim → Claim) (w : Work) : (mapClaims f w).mode = w.mode := rfl
@[simp] theorem mapClaims_estopClear (f : Claim → Claim) (w : Work) : (mapClaims f w).estopClear = w.estopClear := rfl
@[simp] theorem mapClaims_zones (f : Claim → Claim) (w : Work) : (mapClaims f w).zones = w.zones := rfl
@[simp] theorem mapClaims_trackers (f : Claim → Claim) (w : Work) : (mapClaims f w).trackers = w.trackers := rfl
@[simp] theorem mapClaims_trains (f : Claim → Claim) (w : Work) : (mapClaims f w).trains = w.trains := rfl
@[simp] theorem mapClaims_nextSeq (f : Claim → Claim) (w : Work) : (mapClaims f w).nextSeq = w.nextSeq := rfl
@[simp] theorem mapClaims_switches (f : Claim → Claim) (w : Work) : (mapClaims f w).switches = w.switches := rfl
@[simp] theorem mapClaims_sections (f : Claim → Claim) (w : Work) : (mapClaims f w).sections = w.sections := rfl
@[simp] theorem mapClaims_posts (f : Claim → Claim) (w : Work) : (mapClaims f w).posts = w.posts := rfl

/-- The switch of each number, of those whose moves may have served claims that leave. -/
theorem unserve_switch (cs : List Claim) (w : Work) (n : SwitchId) :
    (unserve cs w).switches[n] = (w.switches[n]).map (unserveSwitch cs n) := by simp [unserve]
@[simp] theorem unserve_mode (cs : List Claim) (w : Work) : (unserve cs w).mode = w.mode := rfl
@[simp] theorem unserve_estopClear (cs : List Claim) (w : Work) : (unserve cs w).estopClear = w.estopClear := rfl
@[simp] theorem unserve_zones (cs : List Claim) (w : Work) : (unserve cs w).zones = w.zones := rfl
@[simp] theorem unserve_trackers (cs : List Claim) (w : Work) : (unserve cs w).trackers = w.trackers := rfl
@[simp] theorem unserve_trains (cs : List Claim) (w : Work) : (unserve cs w).trains = w.trains := rfl
@[simp] theorem unserve_claims (cs : List Claim) (w : Work) : (unserve cs w).claims = w.claims := rfl
@[simp] theorem unserve_line (cs : List Claim) (w : Work) : (unserve cs w).line = w.line := rfl
@[simp] theorem unserve_nextSeq (cs : List Claim) (w : Work) : (unserve cs w).nextSeq = w.nextSeq := rfl
@[simp] theorem unserve_sections (cs : List Claim) (w : Work) : (unserve cs w).sections = w.sections := rfl
@[simp] theorem unserve_posts (cs : List Claim) (w : Work) : (unserve cs w).posts = w.posts := rfl

@[simp] theorem raiseBypass_mode (i : Nat) (c : Claim) (w : Work) : (raiseBypass i c w).mode = w.mode := rfl
@[simp] theorem raiseBypass_estopClear (i : Nat) (c : Claim) (w : Work) : (raiseBypass i c w).estopClear = w.estopClear := rfl
@[simp] theorem raiseBypass_zones (i : Nat) (c : Claim) (w : Work) : (raiseBypass i c w).zones = w.zones := rfl
@[simp] theorem raiseBypass_trackers (i : Nat) (c : Claim) (w : Work) : (raiseBypass i c w).trackers = w.trackers := rfl
@[simp] theorem raiseBypass_trains (i : Nat) (c : Claim) (w : Work) : (raiseBypass i c w).trains = w.trains := rfl
@[simp] theorem raiseBypass_line (i : Nat) (c : Claim) (w : Work) : (raiseBypass i c w).line = w.line := rfl
@[simp] theorem raiseBypass_nextSeq (i : Nat) (c : Claim) (w : Work) : (raiseBypass i c w).nextSeq = w.nextSeq := rfl
@[simp] theorem raiseBypass_switches (i : Nat) (c : Claim) (w : Work) : (raiseBypass i c w).switches = w.switches := rfl
@[simp] theorem raiseBypass_sections (i : Nat) (c : Claim) (w : Work) : (raiseBypass i c w).sections = w.sections := rfl
@[simp] theorem raiseBypass_posts (i : Nat) (c : Claim) (w : Work) : (raiseBypass i c w).posts = w.posts := rfl

@[simp] theorem startMove_mode (e : Env) (n : SwitchId) (q : Position) (x : Served) (w : Work) : (startMove e n q x w).mode = w.mode := rfl
@[simp] theorem startMove_estopClear (e : Env) (n : SwitchId) (q : Position) (x : Served) (w : Work) : (startMove e n q x w).estopClear = w.estopClear := rfl
@[simp] theorem startMove_zones (e : Env) (n : SwitchId) (q : Position) (x : Served) (w : Work) : (startMove e n q x w).zones = w.zones := rfl
@[simp] theorem startMove_trackers (e : Env) (n : SwitchId) (q : Position) (x : Served) (w : Work) : (startMove e n q x w).trackers = w.trackers := rfl
@[simp] theorem startMove_trains (e : Env) (n : SwitchId) (q : Position) (x : Served) (w : Work) : (startMove e n q x w).trains = w.trains := rfl
@[simp] theorem startMove_claims (e : Env) (n : SwitchId) (q : Position) (x : Served) (w : Work) : (startMove e n q x w).claims = w.claims := rfl
@[simp] theorem startMove_line (e : Env) (n : SwitchId) (q : Position) (x : Served) (w : Work) : (startMove e n q x w).line = w.line := rfl
@[simp] theorem startMove_nextSeq (e : Env) (n : SwitchId) (q : Position) (x : Served) (w : Work) : (startMove e n q x w).nextSeq = w.nextSeq := rfl
@[simp] theorem startMove_sections (e : Env) (n : SwitchId) (q : Position) (x : Served) (w : Work) : (startMove e n q x w).sections = w.sections := rfl
@[simp] theorem startMove_posts (e : Env) (n : SwitchId) (q : Position) (x : Served) (w : Work) : (startMove e n q x w).posts = w.posts := rfl

@[simp] theorem commandHolds_mode (e : Env) (w : Work) : (commandHolds e w).mode = w.mode := by unfold commandHolds; rfl
@[simp] theorem commandHolds_estopClear (e : Env) (w : Work) : (commandHolds e w).estopClear = w.estopClear := by unfold commandHolds; rfl
@[simp] theorem commandHolds_trackers (e : Env) (w : Work) : (commandHolds e w).trackers = w.trackers := by unfold commandHolds; rfl
@[simp] theorem commandHolds_trains (e : Env) (w : Work) : (commandHolds e w).trains = w.trains := by unfold commandHolds; rfl
@[simp] theorem commandHolds_claims (e : Env) (w : Work) : (commandHolds e w).claims = w.claims := by unfold commandHolds; rfl
@[simp] theorem commandHolds_line (e : Env) (w : Work) : (commandHolds e w).line = w.line := by unfold commandHolds; rfl
@[simp] theorem commandHolds_nextSeq (e : Env) (w : Work) : (commandHolds e w).nextSeq = w.nextSeq := by unfold commandHolds; rfl
@[simp] theorem commandHolds_switches (e : Env) (w : Work) : (commandHolds e w).switches = w.switches := by unfold commandHolds; rfl
@[simp] theorem commandHolds_sections (e : Env) (w : Work) : (commandHolds e w).sections = w.sections := by unfold commandHolds; rfl
@[simp] theorem commandHolds_posts (e : Env) (w : Work) : (commandHolds e w).posts = w.posts := by unfold commandHolds; rfl

@[simp] theorem clearTrains_mode (e : Env) (w : Work) : (clearTrains e w).mode = w.mode := by unfold clearTrains; rfl
@[simp] theorem clearTrains_estopClear (e : Env) (w : Work) : (clearTrains e w).estopClear = w.estopClear := by unfold clearTrains; rfl
@[simp] theorem clearTrains_zones (e : Env) (w : Work) : (clearTrains e w).zones = w.zones := by unfold clearTrains; rfl
@[simp] theorem clearTrains_trackers (e : Env) (w : Work) : (clearTrains e w).trackers = w.trackers := by unfold clearTrains; rfl
@[simp] theorem clearTrains_claims (e : Env) (w : Work) : (clearTrains e w).claims = w.claims := by unfold clearTrains; rfl
@[simp] theorem clearTrains_line (e : Env) (w : Work) : (clearTrains e w).line = w.line := by unfold clearTrains; rfl
@[simp] theorem clearTrains_nextSeq (e : Env) (w : Work) : (clearTrains e w).nextSeq = w.nextSeq := by unfold clearTrains; rfl
@[simp] theorem clearTrains_switches (e : Env) (w : Work) : (clearTrains e w).switches = w.switches := by unfold clearTrains; rfl
@[simp] theorem clearTrains_sections (e : Env) (w : Work) : (clearTrains e w).sections = w.sections := by unfold clearTrains; rfl
@[simp] theorem clearTrains_posts (e : Env) (w : Work) : (clearTrains e w).posts = w.posts := by unfold clearTrains; rfl

@[simp] theorem applyRelease_mode (e : Env) (w : Work) : (applyRelease e w).mode = w.mode := by simp [applyRelease]
@[simp] theorem applyRelease_estopClear (e : Env) (w : Work) : (applyRelease e w).estopClear = w.estopClear := by simp [applyRelease]
@[simp] theorem applyRelease_trackers (e : Env) (w : Work) : (applyRelease e w).trackers = w.trackers := by simp [applyRelease]
@[simp] theorem applyRelease_claims (e : Env) (w : Work) : (applyRelease e w).claims = w.claims := by simp [applyRelease]
@[simp] theorem applyRelease_line (e : Env) (w : Work) : (applyRelease e w).line = w.line := by simp [applyRelease]
@[simp] theorem applyRelease_nextSeq (e : Env) (w : Work) : (applyRelease e w).nextSeq = w.nextSeq := by simp [applyRelease]
@[simp] theorem applyRelease_switches (e : Env) (w : Work) : (applyRelease e w).switches = w.switches := by simp [applyRelease]
@[simp] theorem applyRelease_sections (e : Env) (w : Work) : (applyRelease e w).sections = w.sections := by simp [applyRelease]
@[simp] theorem applyRelease_posts (e : Env) (w : Work) : (applyRelease e w).posts = w.posts := by simp [applyRelease]

@[simp] theorem haltRunning_mode (w : Work) : (haltRunning w).mode = w.mode := by unfold haltRunning; rfl
@[simp] theorem haltRunning_estopClear (w : Work) : (haltRunning w).estopClear = w.estopClear := by unfold haltRunning; rfl
@[simp] theorem haltRunning_zones (w : Work) : (haltRunning w).zones = w.zones := by unfold haltRunning; rfl
@[simp] theorem haltRunning_trackers (w : Work) : (haltRunning w).trackers = w.trackers := by unfold haltRunning; rfl
@[simp] theorem haltRunning_claims (w : Work) : (haltRunning w).claims = w.claims := by unfold haltRunning; rfl
@[simp] theorem haltRunning_line (w : Work) : (haltRunning w).line = w.line := by unfold haltRunning; rfl
@[simp] theorem haltRunning_nextSeq (w : Work) : (haltRunning w).nextSeq = w.nextSeq := by unfold haltRunning; rfl
@[simp] theorem haltRunning_switches (w : Work) : (haltRunning w).switches = w.switches := by unfold haltRunning; rfl
@[simp] theorem haltRunning_sections (w : Work) : (haltRunning w).sections = w.sections := by unfold haltRunning; rfl
@[simp] theorem haltRunning_posts (w : Work) : (haltRunning w).posts = w.posts := by unfold haltRunning; rfl

@[simp] theorem sampleZones_mode (e : Env) (w : Work) : (sampleZones e w).mode = w.mode := by unfold sampleZones; rfl
@[simp] theorem sampleZones_estopClear (e : Env) (w : Work) : (sampleZones e w).estopClear = w.estopClear := by unfold sampleZones; rfl
@[simp] theorem sampleZones_trackers (e : Env) (w : Work) : (sampleZones e w).trackers = w.trackers := by unfold sampleZones; rfl
@[simp] theorem sampleZones_trains (e : Env) (w : Work) : (sampleZones e w).trains = w.trains := by unfold sampleZones; rfl
@[simp] theorem sampleZones_claims (e : Env) (w : Work) : (sampleZones e w).claims = w.claims := by unfold sampleZones; rfl
@[simp] theorem sampleZones_line (e : Env) (w : Work) : (sampleZones e w).line = w.line := by unfold sampleZones; rfl
@[simp] theorem sampleZones_nextSeq (e : Env) (w : Work) : (sampleZones e w).nextSeq = w.nextSeq := by unfold sampleZones; rfl
@[simp] theorem sampleZones_switches (e : Env) (w : Work) : (sampleZones e w).switches = w.switches := by unfold sampleZones; rfl
@[simp] theorem sampleZones_sections (e : Env) (w : Work) : (sampleZones e w).sections = w.sections := by unfold sampleZones; rfl
@[simp] theorem sampleZones_posts (e : Env) (w : Work) : (sampleZones e w).posts = w.posts := by unfold sampleZones; rfl

@[simp] theorem postMode_mode (m : Mode) (c : ModeCause) (w : Work) : (postMode m c w).mode = w.mode := rfl
@[simp] theorem postMode_estopClear (m : Mode) (c : ModeCause) (w : Work) : (postMode m c w).estopClear = w.estopClear := rfl
@[simp] theorem postMode_zones (m : Mode) (c : ModeCause) (w : Work) : (postMode m c w).zones = w.zones := rfl
@[simp] theorem postMode_trackers (m : Mode) (c : ModeCause) (w : Work) : (postMode m c w).trackers = w.trackers := rfl
@[simp] theorem postMode_trains (m : Mode) (c : ModeCause) (w : Work) : (postMode m c w).trains = w.trains := rfl
@[simp] theorem postMode_claims (m : Mode) (c : ModeCause) (w : Work) : (postMode m c w).claims = w.claims := rfl
@[simp] theorem postMode_line (m : Mode) (c : ModeCause) (w : Work) : (postMode m c w).line = w.line := rfl
@[simp] theorem postMode_nextSeq (m : Mode) (c : ModeCause) (w : Work) : (postMode m c w).nextSeq = w.nextSeq := rfl
@[simp] theorem postMode_switches (m : Mode) (c : ModeCause) (w : Work) : (postMode m c w).switches = w.switches := rfl
@[simp] theorem postMode_sections (m : Mode) (c : ModeCause) (w : Work) : (postMode m c w).sections = w.sections := rfl

end Sys2Proof.Machine
end

