-- ==== Sys2Proof/Laws/Ports.lean ====
section
/-! SUPPORT. What the operations on port records do: one record changed, notices delivered, a command row on an idle port. -/

namespace Sys2Proof.Machine

/-! ### One port's record -/

/-- Two vectors with the same entries are one. -/
theorem vector_ext {α : Type} {n : Nat} {a b : Vector α n} (h : ∀ i : Fin n, a[i] = b[i]) : a = b :=
  Vector.ext fun i hi => h ⟨i, hi⟩

/-- An entry of a vector with one entry replaced. -/
theorem vector_get_set {α : Type} {n : Nat} (v : Vector α n) (i j : Fin n) (x : α) :
    (v.set i x)[j] = if i = j then x else v[j] := by
  simp [Fin.getElem_fin, Vector.getElem_set, Fin.ext_iff]

/-- An entry of a vector given by a function. -/
@[simp] theorem vector_get_ofFn {α : Type} {n : Nat} (f : Fin n → α) (i : Fin n) : (Vector.ofFn f)[i] = f i := by
  simp [Fin.getElem_fin]

/-- An entry of a vector mapped. -/
@[simp] theorem vector_get_map {α β : Type} {n : Nat} (f : α → β) (v : Vector α n) (i : Fin n) :
    (v.map f)[i] = f v[i] := by
  simp [Fin.getElem_fin]

/-- An entry of a constant vector. -/
@[simp] theorem vector_get_replicate {α : Type} {n : Nat} (x : α) (i : Fin n) : (Vector.replicate n x)[i] = x := by
  simp [Fin.getElem_fin]

/-- The records after one of them has been changed. -/
theorem modifyPort_port (s : State) (p q : PortId) (f : Port → Port) :
    (s.modifyPort p f).ports[q] = if p = q then f s.ports[q] else s.ports[q] := by
  unfold State.modifyPort
  rw [vector_get_set]
  split
  · next h => rw [h]
  · rfl

/-- The changed record. -/
@[simp] theorem modifyPort_self (s : State) (p : PortId) (f : Port → Port) :
    (s.modifyPort p f).ports[p] = f s.ports[p] := by
  rw [modifyPort_port, if_pos rfl]

/-- The other records. -/
theorem modifyPort_other (s : State) {p q : PortId} (f : Port → Port) (h : p ≠ q) :
    (s.modifyPort p f).ports[q] = s.ports[q] := by
  rw [modifyPort_port, if_neg h]

/-- Two states with the same fields but the ports, and the same port records, are one. -/
theorem state_ext_ports {s t : State} (h : { s with ports := t.ports } = t) (hp : ∀ q : PortId, s.ports[q] = t.ports[q]) :
    s = t := by
  have e : s.ports = t.ports := vector_ext hp
  rw [← h, ← e]

/-- Two changes of one record are one change. -/
theorem modifyPort_twice (s : State) (p : PortId) (f g : Port → Port) :
    (s.modifyPort p f).modifyPort p g = s.modifyPort p (fun r => g (f r)) := by
  apply state_ext_ports rfl
  intro q
  simp only [modifyPort_port]
  split <;> rfl

/-- A change that leaves the record as it is changes nothing. -/
theorem modifyPort_same (s : State) (p : PortId) (f : Port → Port) (h : f s.ports[p] = s.ports[p]) :
    s.modifyPort p f = s := by
  apply state_ext_ports rfl
  intro q
  rw [modifyPort_port]
  split
  · next e => rw [← e, h]
  · rfl

/-! ### Commands (R171) -/

/-- A command row on an idle port is performed at once, and its reply is queued (R171). -/
theorem submit_idle (s : State) (p : PortId) (c : Command) (h : s.idlePort p) :
    submit p c s = replied p (BitVec.ofNat 8 (commandCode c)) (perform p false c s).2 (perform p false c s).1 := by
  obtain ⟨hc, hr⟩ := h
  have hlen : (s.ports[p]).commands.length < Config.commandQueueSize := by rw [hc]; decide
  have hq : ((s.modifyPort p (Port.queueCommand (directCommand c))).ports[p]).commands = [directCommand c] := by
    rw [modifyPort_self]
    show (s.ports[p]).commands ++ [directCommand c] = [directCommand c]
    rw [hc, List.nil_append]
  have hb : (s.modifyPort p (Port.queueCommand (directCommand c))).modifyPort p (fun r => { r with commands := [] }) = s := by
    rw [modifyPort_twice]
    apply modifyPort_same
    simp only [Port.queueCommand]
    rw [← hc]
  unfold submit
  rw [if_pos hlen]
  unfold runHead
  rw [hq]
  have hroom : ((s.modifyPort p (Port.queueCommand (directCommand c))).ports[p]).replies.length <
      Config.replyQueueSize := by
    rw [modifyPort_self]; exact hr
  show (if _ then executeHead p (directCommand c) [] _ else _) = _
  rw [if_pos hroom]
  unfold executeHead
  rw [hb]
  rfl

/-- A command row with 4 commands queued is discarded (R168, log 7). -/
theorem submit_full (s : State) (p : PortId) (c : Command) (h : Config.commandQueueSize ≤ (s.ports[p]).commands.length) :
    submit p c s = s := by
  unfold submit
  rw [if_neg (Nat.not_lt.mpr h)]

/-- With no command queued there is none to execute. -/
theorem runHead_none (s : State) (p : PortId) (h : (s.ports[p]).commands = []) : runHead p s = s := by
  unfold runHead; rw [h]

/-! ### Notices (R172) -/

/-- Delivering notices changes a port's notice queue, summary and overflow alone. -/
theorem deliverTo_eq (l : Layout) (t : BitVec 32) (p : PortId) (os : List Post) (r : Port) :
    ∃ n m o, deliverTo l t p os r = { r with notices := n, summary := m, overflow := o } := by
  unfold deliverTo
  induction os generalizing r with
  | nil => exact ⟨r.notices, r.summary, r.overflow, rfl⟩
  | cons x xs ih =>
    rw [List.foldl_cons]
    by_cases h : reaches l p r x = true
    · rw [if_pos h]
      obtain ⟨n, m, o, e⟩ := ih (r.queueNotice { note := x.note, time := t })
      refine ⟨n, m, o, ?_⟩
      rw [e]
      unfold Port.queueNotice
      split <;> rfl
    · rw [if_neg h]; exact ih r

/-- A notice queue within its bound stays within it (R172). -/
theorem deliverTo_bound (l : Layout) (t : BitVec 32) (p : PortId) (os : List Post) (r : Port)
    (h : r.notices.length ≤ Config.noticeQueueSize) :
    (deliverTo l t p os r).notices.length ≤ Config.noticeQueueSize := by
  unfold deliverTo
  induction os generalizing r with
  | nil => exact h
  | cons x xs ih =>
    rw [List.foldl_cons]
    split
    · apply ih
      unfold Port.queueNotice
      split
      · next hl => simp only [List.length_append, List.length_cons, List.length_nil]; omega
      · exact h
    · exact ih r h

/-- A port's record after notices have been delivered. -/
@[simp] theorem deliver_port (s : State) (os : List Post) (p : PortId) :
    (s.deliver os).ports[p] = deliverTo s.layout s.stamp p os s.ports[p] := by
  unfold State.deliver
  simp

/-- An event that posts no notice leaves the ports alone. -/
theorem deliver_nil (s : State) : s.deliver [] = s := by
  apply state_ext_ports rfl
  intro q
  rw [deliver_port]
  rfl

/-- What an event on the track leaves alone. -/
theorem put_sameButTrack (s : State) (w : Work) : sameButTrack s (s.put w) := by
  refine ⟨rfl, rfl, rfl, rfl, rfl, rfl, rfl, fun p => ?_⟩
  unfold State.put
  rw [deliver_port]
  exact deliverTo_eq _ _ _ _ _

/-- What an event on the track leaves alone. -/
theorem run_sameButTrack (s : State) (f : Env → Work → Work) : sameButTrack s (s.run f) := put_sameButTrack s _

end Sys2Proof.Machine
end

