-- ==== Sys2Proof/Laws/Engine.lean ====
section
/-! SUPPORT. What every operation on the track keeps: a relation between the track before and after that the primitive
updates respect is respected by every operation that sets no mode. -/

namespace Sys2Proof.Machine

/-- A relation that every primitive update of the track respects: a switch is moved outside ESTOPPED only, the other
changes of a switch start no move, and claims come and go by the operations on the list and the line alone. -/
structure Steady (R : Work → Work → Prop) : Prop where
  refl : ∀ w, R w w
  trans : ∀ {a b c}, R a b → R b c → R a c
  mode : ∀ {a b}, R a b → b.mode = a.mode
  posts : ∀ (w : Work) v, R w { w with posts := v }
  zones : ∀ (w : Work) v, R w { w with zones := v }
  trackers : ∀ (w : Work) v, R w { w with trackers := v }
  trains : ∀ (w : Work) v, R w { w with trains := v }
  sections : ∀ (w : Work) v, R w { w with sections := v }
  setClaims : ∀ (w : Work) cs, R w (w.setClaims cs)
  newClaim : ∀ (w : Work) b t, R w (arriveClaim b t w)
  edit : ∀ (w : Work) (l m : List Claim), l.length = w.claims.length → m.length = w.line.length →
    R w { w with claims := l, line := m }
  switch : ∀ (w : Work) n f, (∀ s : Switch, s.drivesAgree → (f s).drivesAgree) →
    (∀ s : Switch, (f s).isMoving = true → s.isMoving = true) → R w (w.modifySwitch n f)
  unserve : ∀ (w : Work) cs, R w (unserve cs w)
  start : ∀ e (w : Work) n q x, w.mode ≠ .estopped → R w (startMove e n q x w)

/-! ### Changes of a switch record that start no move -/

/-- A record with no drive on and not MOVING. -/
theorem drivesAgree_still (s : Switch) (hs : s.driveStraight = false) (hd : s.driveDiverge = false)
    (hm : s.isMoving = false) : s.drivesAgree := by
  unfold Switch.drivesAgree
  rw [hs, hd]
  unfold Switch.isMoving at hm
  constructor <;> constructor <;> intro h
  · cases h
  · obtain ⟨l, x, h⟩ := h; rw [h] at hm; cases hm
  · cases h
  · obtain ⟨l, x, h⟩ := h; rw [h] at hm; cases hm

/-- A MOVING record with the drive of its target on. -/
theorem drivesAgree_moving (s : Switch) (q : Position) (l : Nat) (x : Served) (h : s.state = .moving q l x)
    (hs : s.driveStraight = decide (q = .straight)) (hd : s.driveDiverge = decide (q = .diverge)) : s.drivesAgree := by
  unfold Switch.drivesAgree
  rw [hs, hd, h]
  cases q <;> simp

/-- A change of a switch record that keeps state and drives. -/
theorem drivesAgree_congr {s t : Switch} (h : s.drivesAgree) (hm : t.state = s.state)
    (hs : t.driveStraight = s.driveStraight) (hd : t.driveDiverge = s.driveDiverge) : t.drivesAgree := by
  unfold Switch.drivesAgree at *
  rw [hm, hs, hd]
  exact h

/-- A move that serves another. -/
theorem drivesAgree_served {s t : Switch} {q : Position} {l m : Nat} {x y : Served} (h : s.drivesAgree)
    (e : s.state = .moving q l x) (hm : t.state = .moving q m y) (hs : t.driveStraight = s.driveStraight)
    (hd : t.driveDiverge = s.driveDiverge) : t.drivesAgree := by
  unfold Switch.drivesAgree at *
  rw [hm, hs, hd]
  rw [e] at h
  cases q <;> simpa using h

/-- A re-read record has no drive on (R126). -/
theorem reread_agrees (s : Switch) (q : Option Position) : (s.reread q).drivesAgree :=
  drivesAgree_still _ rfl rfl (by cases q <;> rfl)

/-- A re-read record is not MOVING (R126). -/
theorem reread_still (s : Switch) (q : Option Position) : (s.reread q).isMoving = false := by cases q <;> rfl

/-- A move that served claims that leave goes on. -/
theorem unserveSwitch_agrees (cs : List Claim) (n : SwitchId) (s : Switch) (h : s.drivesAgree) :
    (unserveSwitch cs n s).drivesAgree := by
  unfold unserveSwitch
  split
  · next q l n e =>
    split
    · exact drivesAgree_served h e rfl rfl rfl
    · exact h
  · exact h

/-- A move that served claims that leave goes on, and no other starts. -/
theorem unserveSwitch_moving (cs : List Claim) (n : SwitchId) (s : Switch) : (unserveSwitch cs n s).isMoving = s.isMoving := by
  unfold unserveSwitch
  split
  · next q l n e =>
    split
    · unfold Switch.isMoving; rw [e]
    · rfl
  · rfl

/-- A switch that leaves its section keeps its drives (R133). -/
theorem leaveSection_agrees (s : Switch) (h : s.drivesAgree) : (leaveSection s).drivesAgree := by
  unfold leaveSection
  split
  · next q l p e => exact drivesAgree_served h e rfl rfl rfl
  · exact drivesAgree_congr h rfl rfl rfl

/-- A switch that leaves its section starts no move (R133). -/
theorem leaveSection_moving (s : Switch) : (leaveSection s).isMoving = s.isMoving := by
  unfold leaveSection
  split
  · next q l p e => unfold Switch.isMoving; rw [e]
  · rfl

/-- A switch of a revoked section (R133, R147). -/
theorem revokeSwitch_agrees (e : Env) (n : SwitchId) (s : Switch) (h : s.drivesAgree) :
    (revokeSwitch e n s).drivesAgree := by
  unfold revokeSwitch
  split
  · exact drivesAgree_congr (reread_agrees s (e.positionRead n)) rfl rfl rfl
  · exact drivesAgree_congr h rfl rfl rfl

/-- A switch of a revoked section is not MOVING (R133, R147). -/
theorem revokeSwitch_moving (e : Env) (n : SwitchId) (s : Switch) : (revokeSwitch e n s).isMoving = false := by
  unfold revokeSwitch
  split
  · exact reread_still s _
  · next h => exact eq_false_of_ne_true h

namespace Steady

variable {R : Work → Work → Prop} (h : Steady R)
include h

/-! ### Primitive updates -/

/-- A fold of operations. -/
theorem foldl {α : Type} (f : Work → α → Work) (hf : ∀ w x, R w (f w x)) (xs : List α) (w : Work) :
    R w (xs.foldl f w) := by
  induction xs generalizing w with
  | nil => exact h.refl w
  | cons x xs ih => exact h.trans (hf w x) (ih _)

theorem post (w : Work) (n nm s d1 d2) : R w (w.post n nm s d1 d2) := h.posts w _
theorem setZone (w : Work) (z s) : R w (w.setZone z s) := h.zones w _
theorem setZones (w : Work) (zs s) : R w (w.setZones zs s) := h.foldl _ (fun w z => h.setZone w z s) zs w
theorem setSupervision (w : Work) (z s) : R w (w.setSupervision z s) := h.zones w _
theorem setTracker (w : Work) (z k) : R w (w.setTracker z k) := h.trackers w _
theorem setTrain (w : Work) (t r) : R w (w.setTrain t r) := h.trains w _
theorem modifyTrain (w : Work) (t f) : R w (w.modifyTrain t f) := h.trains w _
theorem setSection (w : Work) (p r) : R w (w.setSection p r) := h.sections w _
theorem mapClaims (f : Claim → Claim) (w : Work) : R w (mapClaims f w) :=
  h.edit w _ _ (List.length_map _) (List.length_map _)

/-- A re-read of a switch. -/
theorem reread (w : Work) (n q) : R w (w.modifySwitch n fun s => s.reread q) :=
  h.switch w n _ (fun s _ => reread_agrees s q) (fun s hs => by rw [reread_still] at hs; cases hs)

/-- A switch's record keeps its state and drives. -/
theorem joinSection (w : Work) (n p) : R w (w.modifySwitch n fun s => { s with sectionPort := p }) :=
  h.switch w n _ (fun _ hs => drivesAgree_congr hs rfl rfl rfl) (fun _ hs => hs)

/-! ### Holds and claims -/

theorem applyRelease (e : Env) (w : Work) : R w (applyRelease e w) :=
  h.trans (h.zones w _) (h.trains (commandHolds e w) _)

theorem dropClaims (gone : Claim → Bool) (w : Work) : R w (dropClaims gone w) :=
  h.trans (h.unserve w _) (h.setClaims _ _)

theorem unreserve (t z) (w : Work) : R w (unreserve t z w) := by
  unfold Machine.unreserve; split
  · exact h.setZone _ _ _
  · exact h.refl _

theorem removeEntries (t k) (w : Work) : R w (removeEntries t k w) :=
  h.trans (h.foldl _ (fun w z => h.unreserve t z w) _ w) (h.trans (h.modifyTrain _ t _) (h.dropClaims _ _))

theorem releaseEntryOf (c : Claim) (w : Work) : R w (releaseEntryOf c w) := by
  unfold Machine.releaseEntryOf; split
  · exact h.removeEntries _ _ _
  · exact h.refl _

theorem withdrawClaim (c : Claim) (w : Work) : R w (withdrawClaim c w) := by
  unfold Machine.withdrawClaim
  have h1 := h.trans (h.releaseEntryOf c w) (h.dropClaims (fun d => d.same c) _)
  split
  · exact h.trans h1 (h.modifyTrain _ _ _)
  · exact h1

theorem withdrawAll (gone : Claim → Bool) (w : Work) : R w (withdrawAll gone w) :=
  h.foldl _ (fun w c => by
    split
    · exact h.withdrawClaim c w
    · exact h.refl w) _ w

theorem returnToWaiting (c : Claim) (w : Work) : R w (returnToWaiting c w) :=
  h.trans (h.releaseEntryOf c w) (h.trans (h.mapClaims _ _) (h.unserve _ _))

theorem returnAllToWaiting (w : Work) : R w (returnAllToWaiting w) :=
  h.foldl _ (fun w c => by
    split
    · exact h.returnToWaiting c w
    · exact h.refl w) _ w

theorem postAbort (t o c) (w : Work) : R w (postAbort t o c w) := by
  unfold Machine.postAbort; split <;> exact h.posts _ _

theorem formClaim (e : Env) (t b fs o wait) (w w' : Work) (hf : formClaim e t b fs o wait w = .claim w') : R w w' := by
  unfold Machine.formClaim at hf
  repeat' split at hf
  all_goals first | cases hf; exact h.newClaim _ _ _ | cases hf

theorem routeEnd (e : Env) (t) (w : Work) : R w (routeEnd e t w) := h.trans (h.setTrain _ _ _) (h.posts _ _)

theorem formAtRest (e : Env) (t o wait) (w : Work) : R w (formAtRest e t o wait w) := by
  unfold Machine.formAtRest
  split
  · exact h.refl w
  · split
    · next hf => exact h.trans (h.formClaim _ _ _ _ _ _ _ _ hf) (h.modifyTrain _ _ _)
    · exact h.routeEnd e t w
    · exact h.refl w

theorem formOnward (e : Env) (t b fs) (w : Work) : R w (formOnward e t b fs w) := by
  unfold Machine.formOnward
  split
  · next hf => exact h.formClaim _ _ _ _ _ _ _ _ hf
  · exact h.refl w
  · exact h.refl w

/-! ### The arbiter -/

theorem raiseBypass (i c) (w : Work) : R w (raiseBypass i c w) := by
  refine h.edit w _ w.line ?_ rfl
  rw [List.length_append, List.length_map, ← List.length_append, List.take_append_drop]

theorem appendLeg (g) (w : Work) : R w (appendLeg g w) := h.trans (h.setZones _ _ _) (h.modifyTrain _ _ _)

theorem settleOrWait (c a) (w : Work) : R w (settleOrWait c a w) := by
  unfold Machine.settleOrWait; split
  · exact h.dropClaims _ _
  · exact h.mapClaims _ _

theorem onwardAtGrant (e : Env) (g) (w : Work) : R w (onwardAtGrant e g w) := by
  unfold Machine.onwardAtGrant; split
  · split
    · split
      · next hf => exact h.trans (h.formClaim _ _ _ _ _ _ _ _ hf) (h.modifyTrain _ _ _)
      · exact h.refl _
      · exact h.refl _
    · exact h.refl _
  · exact h.refl _

theorem postGrant (g) (w : Work) : R w (postGrant g w) := by
  unfold Machine.postGrant; dsimp only; split <;> exact h.posts _ _

/-- Moves are started outside ESTOPPED. -/
theorem startMoves (e : Env) (x : Served) (qs : List Requirement) (w : Work) (hm : w.mode ≠ .estopped) :
    R w (qs.foldl (fun w q => startMove e q.switch q.position x w) w) := by
  induction qs generalizing w with
  | nil => exact h.refl w
  | cons q qs ih =>
    have h1 := h.start e w q.switch q.position x hm
    exact h.trans h1 (ih _ (by rw [h.mode h1]; exact hm))

theorem grantLeg (e : Env) (i c g) (w : Work) (hm : w.mode ≠ .estopped) : R w (grantLeg e i c g w) := by
  have h1 := h.trans (h.appendLeg g w) (h.raiseBypass i c _)
  have h2 := h.trans h1
    (h.startMoves e (.claim c.seq) (unsettled (Machine.raiseBypass i c (Machine.appendLeg g w)).toTrack g) _
      (by rw [h.mode h1]; exact hm))
  exact h.trans h2 (h.trans (h.settleOrWait _ _ _) (h.trans (h.applyRelease e _)
    (h.trans (h.onwardAtGrant e g _) (h.postGrant g _))))

theorem makeManual (p t) (w : Work) : R w (makeManual p t w) := by
  unfold Machine.makeManual
  refine h.trans ?_ (h.modifyTrain _ _ _)
  refine h.trans ?_ (h.removeEntries _ _ _)
  refine h.trans ?_ (h.postAbort _ _ _ _)
  exact h.withdrawAll _ w

theorem grantSection (e : Env) (i c g) (w : Work) : R w (grantSection e i c g w) :=
  h.trans (h.raiseBypass i c w) (h.trans (h.foldl _ (fun w t => h.makeManual g.port t w) _ _)
    (h.trans (h.setZones _ _ _) (h.trans (h.foldl _ (fun w n => h.joinSection w n _) _ _)
      (h.trans (h.dropClaims _ _) (h.trans (h.setSection _ _ _) (h.trans (h.posts _ _) (h.applyRelease e _)))))))

omit h in
/-- A LEG claim is granted in OPERATING alone (R99). -/
theorem grantable_mode {e : Env} {w : Track} {i : Nat} {c : Claim} {g : LegClaim} (hb : c.body = .leg g)
    (hg : grantable e w i c = true) : w.mode = .operating := by
  unfold grantable at hg
  rw [hb] at hg
  simp only [Bool.and_eq_true] at hg
  have := hg.1.2
  unfold legGrantable at this
  simp only [Bool.and_eq_true, decide_eq_true_eq] at this
  exact this.1.1

theorem grant (e : Env) (i c) (w : Work) (hg : grantable e w.toTrack i c = true) : R w (grant e i c w) := by
  unfold Machine.grant
  split
  · next g hb => exact h.grantLeg e i c g w (by rw [grantable_mode hb hg]; exact fun x => by cases x)
  · exact h.grantSection e i c _ w

theorem scanClaims (e : Env) (fuel i g) (w : Work) : R w (scanClaims e fuel i g w) := by
  induction fuel generalizing i g w with
  | zero => exact h.refl w
  | succ k ih =>
    unfold Machine.scanClaims
    split
    · split
      · exact ih _ _ _
      · exact h.refl w
    · split
      · next hg => exact h.trans (h.grant e i _ w hg) (ih _ _ _)
      · exact ih _ _ _

theorem judgeYield (w : Work) : R w (judgeYield w) :=
  h.foldl _ (fun w p => by
    unfold judgeYieldOf
    split
    · exact h.refl w
    · split
      · exact h.setSection _ _ _
      · split
        · exact h.refl w
        · exact h.trans (h.setSection _ _ _) (h.posts _ _)) _ w

theorem evaluate (e : Env) (w : Work) : R w (evaluate e w) := h.trans (h.scanClaims e _ _ _ w) (h.judgeYield _)

end Steady

end Sys2Proof.Machine
end

