-- ==== Sys2Proof/Laws/Events.lean ====
section
/-! SUPPORT. What every event on the track keeps: trains, passages, stops, switches, sections; and the events that may halt
the ride. -/

namespace Sys2Proof.Machine

namespace Steady

variable {R : Work → Work → Prop} (h : Steady R)
include h

/-! ### Trains (chapters 4 and 7) -/

theorem endDwell (e : Env) (t) (w : Work) : R w (endDwell e t w) := h.trans (h.modifyTrain _ _ _) (h.formAtRest _ _ _ _ _)

theorem startDwell (e : Env) (t n) (w : Work) : R w (startDwell e t n w) := by
  unfold Machine.startDwell; split
  · exact h.endDwell _ _ _
  · exact h.modifyTrain _ _ _

theorem actOnStep (e : Env) (t) (w : Work) : R w (actOnStep e t w) := by
  unfold Machine.actOnStep
  split
  · exact h.formAtRest _ _ _ _ _
  · exact h.startDwell _ _ _ _
  · exact h.refl w
  · split <;> exact h.posts _ _
  · exact h.refl w

theorem postArrived (e : Env) (t z) (w : Work) : R w (postArrived e t z w) := h.posts _ _

theorem restRunning (e : Env) (t z) (w : Work) : R w (restRunning e t z w) := by
  unfold Machine.restRunning
  have h1 : R w (Machine.postArrived e t z (Machine.withdrawAll (fun c => c.isLegOf t && !c.startsAt t z)
      (w.modifyTrain t fun r => { r with state := .standing, travel := none }))) :=
    h.trans (h.modifyTrain _ _ _) (h.trans (h.withdrawAll _ _) (h.postArrived _ _ _ _))
  dsimp only
  split
  · exact h.trans h1 (h.modifyTrain _ _ _)
  · exact h.trans h1 (h.actOnStep _ _ _)

theorem restHalted (e : Env) (t z) (w : Work) : R w (restHalted e t z w) := by
  unfold Machine.restHalted
  have h1 : R w (Machine.postArrived e t z (Machine.withdrawAll (fun c => c.isLegOf t && !c.startsAt t z)
      (Machine.removeEntries t 0 (w.modifyTrain t fun r => { r with state := .standing, travel := none })))) :=
    h.trans (h.modifyTrain _ _ _) (h.trans (h.removeEntries _ _ _) (h.trans (h.withdrawAll _ _) (h.postArrived _ _ _ _)))
  dsimp only
  split
  · exact h.trans h1 (h.modifyTrain _ _ _)
  · exact h.trans h1 (h.actOnStep _ _ _)

theorem restTrain (e : Env) (t) (w : Work) : R w (restTrain e t w) := by
  unfold Machine.restTrain
  split
  · exact h.refl w
  · split
    · split
      · exact h.restRunning _ _ _ _
      · exact h.restHalted _ _ _ _
      · exact h.refl w
    · exact h.refl w

theorem restTrains (e : Env) (w : Work) : R w (restTrains e w) := h.foldl _ (fun w t => h.restTrain e t w) _ w

theorem conclude (e : Env) (w : Work) : R w (conclude e w) :=
  h.trans (h.applyRelease e w) (h.trans (h.restTrains e _) (h.trans (h.applyRelease e _) (h.evaluate e _)))

theorem depart (e : Env) (t z) (w : Work) : R w (depart e t z w) := by
  unfold Machine.depart postDeparted
  split
  · split <;> first | exact h.trans (h.modifyTrain _ _ _) (h.posts _ _) | exact h.modifyTrain _ _ _
  · exact h.modifyTrain _ _ _

theorem loseTrain (t) (w : Work) : R w (loseTrain t w) := by
  unfold Machine.loseTrain
  dsimp only
  refine h.trans ?_ (h.modifyTrain _ _ _)
  refine h.trans ?_ (h.setZones _ _ _)
  refine h.trans ?_ (h.postAbort _ _ _ _)
  exact h.dropClaims _ w

theorem faultZone (k z) (w : Work) : R w (faultZone k z w) := by
  unfold Machine.faultZone; split <;> first | exact h.refl _ | exact h.setZone _ _ _

theorem faultZones (k zs) (w : Work) : R w (faultZones k zs w) :=
  h.trans (h.foldl _ (fun w t => h.loseTrain t w) _ w) (h.foldl _ (fun w z => h.faultZone k z w) _ _)

/-! ### Halts and moves (chapters 8 and 10) -/

theorem haltResting (t) (w : Work) : R w (haltResting t w) := by
  unfold Machine.haltResting
  dsimp only
  split
  · refine h.trans ?_ (h.postAbort _ _ _ _)
    refine h.trans ?_ (h.modifyTrain _ _ _)
    exact h.trans (h.removeEntries _ _ _) (h.dropClaims _ _)
  · exact h.trans (h.removeEntries _ _ _) (h.dropClaims _ _)
  · exact h.trans (h.removeEntries _ _ _) (h.dropClaims _ _)
  · exact h.refl w

/-- The ride halt after the change of mode (R151). -/
theorem rideHalt (e : Env) (m) (w : Work) : R { w with mode := m } (rideHalt e m w) := by
  unfold Machine.rideHalt
  refine h.trans ?_ (h.applyRelease _ _)
  refine h.trans ?_ (h.trains _ _)
  exact h.trans (h.returnAllToWaiting _) (h.foldl _ (fun w t => h.haltResting t w) _ _)

theorem arriveFor (n x) (w : Work) : R w (arriveFor n x w) := by
  unfold Machine.arriveFor
  repeat' split
  all_goals first | exact h.refl _ | exact h.dropClaims _ _ | exact h.mapClaims _ _

theorem arrive (n) (w : Work) : R w (arrive n w) := by
  unfold Machine.arrive
  split
  · refine h.trans ?_ (h.arriveFor _ _ _)
    refine h.trans ?_ (h.posts _ _)
    exact h.switch w n _ (fun _ _ => drivesAgree_still _ rfl rfl rfl) (fun _ hs => by cases hs)
  · exact h.refl w

theorem arrivals (e : Env) (k) (w : Work) : R w (arrivals e k w) := by
  induction k generalizing w with
  | zero => exact h.refl w
  | succ k ih =>
    unfold Machine.arrivals
    split
    · exact h.refl w
    · exact h.trans (h.arrive _ w) (h.trans (h.conclude e _) (ih _))

theorem closeEvent (e : Env) (w : Work) : R w (closeEvent e w) := h.trans (h.conclude e w) (h.arrivals e 4 _)

theorem closeEval (e : Env) (w : Work) : R w (closeEval e w) := h.trans (h.evaluate e w) (h.arrivals e 4 _)

theorem abandonMove (e : Env) (n) (w : Work) : R w (abandonMove e n w) := h.reread w n _

theorem abandonAll (e : Env) (w : Work) : R w (abandonAll e w) :=
  h.foldl _ (fun w n => by
    split
    · exact h.trans (h.abandonMove e n w) (h.posts _ _)
    · exact h.refl w) _ w

theorem postMode (m c) (w : Work) : R w (postMode m c w) := h.posts _ _

theorem failMove (n q x) (w : Work) : R w (failMove n q x w) := by
  unfold Machine.failMove
  have h1 : R w (w.modifySwitch n fun s => { s with state := .failed, attempts := 3, driveStraight := false, driveDiverge := false }) :=
    h.switch w n _ (fun _ _ => drivesAgree_still _ rfl rfl rfl) (fun _ hs => by cases hs)
  dsimp only
  split
  · exact h.trans h1 (h.trans (h.returnToWaiting _ _) (h.posts _ _))
  · exact h.trans h1 (h.posts _ _)

/-- A next attempt of a move in progress (R130). -/
theorem retryMove (e : Env) (n q x k) (w : Work) {r : Switch} {l : Nat} {y : Served} (hr : w.switches[n] = some r)
    (hm : r.state = .moving q l y) : R w (retryMove e n q x k w) := by
  unfold Machine.retryMove
  refine h.trans ?_ (h.posts _ _)
  have hw : (w.modifySwitch n fun s =>
      { s with
        state := .moving q (((e.layout.switches[n]).map (·.moveLimit)).getD 0 * 100) x
        attempts := k, driveStraight := decide (q = .straight), driveDiverge := decide (q = .diverge) }) =
      w.modifySwitch n fun s => if s.isMoving then
        { s with
          state := .moving q (((e.layout.switches[n]).map (·.moveLimit)).getD 0 * 100) x
          attempts := k, driveStraight := decide (q = .straight), driveDiverge := decide (q = .diverge) } else s := by
    unfold Work.modifySwitch
    rw [hr]
    simp only [Option.map_some]
    have : r.isMoving = true := by unfold Switch.isMoving; rw [hm]
    rw [if_pos this]
  rw [hw]
  refine h.switch w n _ (fun s hs => ?_) (fun s hs => ?_)
  · split
    · exact drivesAgree_moving _ q _ _ rfl rfl rfl
    · exact hs
  · split at hs
    · next hm => exact hm
    · exact hs

/-! ### Passages (chapter 3) -/

theorem departAtHead (e : Env) (t z) (w : Work) : R w (departAtHead e t z w) := by
  unfold Machine.departAtHead; split
  · exact h.depart _ _ _ _
  · exact h.refl w

theorem onwardAtStart (e : Env) (t g) (w : Work) : R w (onwardAtStart e t g w) := by
  unfold Machine.onwardAtStart; split
  · split
    · exact h.formOnward _ _ _ _ _
    · exact h.refl w
  · exact h.refl w

theorem advanceHead (t z g gs) (w : Work) : R w (advanceHead t z g gs w) := h.trans (h.setZone _ _ _) (h.modifyTrain _ _ _)

theorem arriveAtDestination (t g) (w : Work) : R w (arriveAtDestination t g w) := by
  unfold Machine.arriveAtDestination; split
  · exact h.modifyTrain _ _ _
  · exact h.refl w

theorem takeHead (e : Env) (t z g gs) (w : Work) : R w (takeHead e t z g gs w) := by
  unfold Machine.takeHead
  dsimp only
  refine h.trans (h.advanceHead t z g gs w) ?_
  refine h.trans ?_ (h.arriveAtDestination _ _ _)
  refine h.trans ?_ (h.onwardAtStart _ _ _ _)
  refine h.trans ?_ (h.modifyTrain _ _ _)
  exact h.trans (h.modifyTrain _ _ _) (h.departAtHead _ _ _ _)

theorem restReleased (e : Env) (t z) (w : Work) : R w (restReleased e t z w) := by
  unfold Machine.restReleased; dsimp only; split
  · exact h.setTrain _ _ _
  · exact h.refl w

theorem takeTail (e : Env) (t z) (w : Work) : R w (takeTail e t z w) := by
  unfold Machine.takeTail
  refine h.trans ?_ (h.modifyTrain _ _ _)
  refine h.foldl _ (fun w y => ?_) _ w
  unfold vacate
  split <;> exact h.setZone _ _ _

/-! ### Stops (chapters 4, 6 and 7) -/

theorem abortClaimed (t z c) (w : Work) : R w (abortClaimed t z c w) := by
  unfold Machine.abortClaimed; split
  · exact h.trans (h.withdrawClaim _ w) (h.postAbort _ _ _ _)
  · exact h.refl w

theorem takeBackCleared (t) (w : Work) : R w (takeBackCleared t w) :=
  h.trans (h.removeEntries t 0 w) (h.trans (h.modifyTrain _ _ _) (h.postAbort _ _ _ _))

theorem readyDrops (e : Env) (i) (w : Work) : R w (readyDrops e i w) := by
  unfold Machine.readyDrops
  split
  · exact h.refl w
  · split
    · exact h.refl w
    · exact h.trans (h.abortClaimed _ _ _ w) (h.closeEvent _ _)
    · exact h.trans (h.abortClaimed _ _ _ w) (h.closeEvent _ _)
    · exact h.trans (h.takeBackCleared _ w) (h.closeEvent _ _)

theorem readyChange (e : Env) (i a) (w : Work) : R w (readyChange e i a w) := by
  unfold Machine.readyChange
  repeat' split
  all_goals first | exact h.readyDrops _ _ _ | exact h.refl _

theorem stopChange (e : Env) (z a) (w : Work) : R w (stopChange e z a w) := by
  unfold Machine.stopChange
  split
  · exact h.refl w
  · split
    · split
      · exact h.closeEvent e w
      · exact h.refl w
    · split
      · exact h.depart e _ z w
      · exact h.refl w

theorem settleEnds (e : Env) (z) (w : Work) : R w (settleEnds e z w) := by
  unfold Machine.settleEnds; split
  · exact h.trans (h.setZone _ _ _) (h.closeEval _ _)
  · exact h.refl w

theorem dwellEnds (e : Env) (t) (w : Work) : R w (dwellEnds e t w) := by
  unfold Machine.dwellEnds; split
  · exact h.trans (h.endDwell _ _ _) (h.closeEval _ _)
  · exact h.refl w

theorem stall (e : Env) (t z) (w : Work) : R w (stall e t z w) := by
  unfold Machine.stall
  dsimp only
  have h1 := h.trans (h.removeEntries t 0 w) (h.trans (h.modifyTrain _ t fun r =>
    { (r.mapRide fun d => { d with stalled := true }) with state := .standing, departure := none })
    (h.post _ [0] .departureStalled (.train t) (byteOf z.val) 0xFF))
  split
  · exact h.trans h1 (h.posts _ _)
  · exact h1

theorem windowEnds (e : Env) (t) (w : Work) : R w (windowEnds e t w) := by
  unfold Machine.windowEnds; split
  · exact h.trans (h.stall _ _ _ _) (h.closeEvent _ _)
  · exact h.refl w

theorem waitEnds (e : Env) (k) (w : Work) : R w (waitEnds e k w) := by
  unfold Machine.waitEnds
  split
  · exact h.refl w
  · split
    · next c _ _ g _ =>
      refine h.trans ?_ (h.closeEval e _)
      refine h.trans (h.withdrawClaim c w) ?_
      unfold postExpired
      split
      · exact h.post _ _ _ _ _ _
      · exact h.refl _
      · exact h.refl _
    · next c _ _ g _ =>
      refine h.trans ?_ (h.closeEvent e _)
      refine h.trans (h.withdrawClaim c w) ?_
      exact h.trans (h.setSection _ g.port .none) (h.post _ _ _ _ _ _)

/-! ### Sections (chapter 9) -/

theorem returnSection (e : Env) (p hs ds) (w : Work) : R w (returnSection e p hs ds w) := by
  unfold Machine.returnSection
  dsimp only
  refine h.trans ?_ (h.foldl _ (fun w t => h.actOnStep e t w) _ _)
  refine h.trans ?_ (h.posts _ _)
  refine h.trans ?_ (h.applyRelease _ _)
  refine h.trans ?_ (h.setSection _ _ _)
  refine h.trans ?_ (h.foldl _ (fun w n => h.switch w n _ leaveSection_agrees
    (fun s hs => by rw [leaveSection_moving] at hs; exact hs)) _ _)
  refine h.trans ?_ (h.foldl _ (fun w t => ?_) _ _)
  · refine h.foldl _ (fun w q => ?_) _ w
    unfold returnZone
    split
    · exact h.setZone _ _ _
    · exact h.setZone _ _ _
    · exact h.trans (h.setZone _ _ _) (h.posts _ _)
  · unfold returnTrain
    split
    · exact h.modifyTrain _ _ _
    · split
      · split
        · exact h.modifyTrain _ _ _
        · exact h.trans (h.setTrain _ _ _) (h.posts _ _)
      · exact h.refl w

theorem revokeSection (e : Env) (p hs) (w : Work) : R w (revokeSection e p hs w) := by
  unfold Machine.revokeSection
  dsimp only
  refine h.trans ?_ (h.posts _ _)
  refine h.trans ?_ (h.applyRelease _ _)
  refine h.trans ?_ (h.setSection _ _ _)
  refine h.trans ?_ (h.foldl _ (fun w n => h.switch w n _ (revokeSwitch_agrees e n)
    (fun s hs => by rw [revokeSwitch_moving] at hs; cases hs)) _ _)
  exact h.trans (h.setZones _ _ _) (h.foldl _ (fun w t => h.modifyTrain _ _ _) _ _)

theorem lapseSection (e : Env) (p) (w : Work) : R w (lapseSection e p w) := by
  unfold Machine.lapseSection; split
  · exact h.refl w
  · exact h.trans (h.withdrawAll _ w) (h.trans (h.setSection _ _ _) (h.posts _ _))
  · exact h.revokeSection _ _ _ _

theorem lapseClaims (p) (w : Work) : R w (lapseClaims p w) :=
  h.foldl _ (fun w c => by
    unfold lapseClaim
    split
    · exact h.trans (h.withdrawClaim _ _) (h.postAbort _ _ _ _)
    · exact h.refl w) _ w

end Steady

/-! ### Events that may halt the ride (R153, R154) -/

/-- One track comes of another by operations that set no mode and by changes from OPERATING or STANDBY to HALTED. -/
inductive HaltPath : Work → Work → Prop
  | steady {a b : Work} (h : ∀ R, Steady R → R a b) : HaltPath a b
  | halt (a : Work) (m : a.mode = .operating ∨ a.mode = .standby) : HaltPath a { a with mode := .halted }
  | trans {a b c : Work} (h : HaltPath a b) (k : HaltPath b c) : HaltPath a c

namespace HaltPath

theorem refl (w : Work) : HaltPath w w := .steady fun _ h => h.refl w

theorem respondHalt (e : Env) (n) (w : Work) : HaltPath w (respondHalt e n w) := by
  unfold Machine.respondHalt
  split
  · next m => exact .trans (.halt w (.inl m)) (.steady fun _ h => h.trans (h.rideHalt e _ w) (h.postMode _ _ _))
  · next m => exact .trans (.halt w (.inr m)) (.steady fun _ h => h.trans (h.rideHalt e _ w) (h.postMode _ _ _))
  · exact refl w
  · exact refl w
  · exact refl w

theorem raiseHalt (e : Env) (n s d1 d2) (w : Work) : HaltPath w (raiseHalt e n s d1 d2 w) :=
  .trans (.steady fun _ h => h.posts w _) (respondHalt e n _)

theorem raiseAtZone (e : Env) (n k z d) (w : Work) : HaltPath w (raiseAtZone e n k z d w) :=
  .trans (.steady fun _ h => h.faultZones k [z] w) (raiseHalt e n _ _ _ _)

theorem close {a b : Work} (e : Env) (h : HaltPath a b) : HaltPath a (closeEvent e b) :=
  .trans h (.steady fun _ k => k.closeEvent e b)

theorem checkShort (e : Env) (t z) (w : Work) : HaltPath w (checkShort e t z w) := by
  unfold Machine.checkShort; split
  · exact raiseHalt _ _ _ _ _ _
  · exact refl w

theorem headInAuthority (e : Env) (t z s) (w : Work) : HaltPath w (headInAuthority e t z s w) := by
  unfold Machine.headInAuthority
  split
  · exact refl w
  · split
    · split
      · split
        · exact .trans (.steady fun _ h => h.loseTrain t w) (raiseHalt _ _ _ _ _ _)
        · exact .trans (.steady fun _ h => h.takeHead e t z _ _ w) (checkShort _ _ _ _)
      · exact raiseAtZone _ _ _ _ _ _
    · unfold missSensor
      split
      · exact refl w
      · exact .trans (.steady fun _ h => h.faultZones _ _ w) (raiseHalt _ _ _ _ _ _)

theorem headEvent (e : Env) (z) (w : Work) : HaltPath w (headEvent e z w) := by
  unfold Machine.headEvent
  split
  · exact refl w
  · exact .steady fun _ h => h.posts w _
  · split
    · exact close e (headInAuthority _ _ _ _ _)
    · exact close e (raiseAtZone _ _ _ _ _ _)

theorem tailEvent (e : Env) (z) (w : Work) : HaltPath w (tailEvent e z w) := by
  unfold Machine.tailEvent
  split
  · exact refl w
  · exact .steady fun _ h => h.posts w _
  · split
    · exact .steady fun _ h => h.posts w _
    · split
      · exact .steady fun _ h => h.posts w _
      · exact close e (.steady fun _ h => h.trans (h.takeTail _ _ _ _) (h.restReleased _ _ _ _))

theorem entryChange (e : Env) (z a) (w : Work) : HaltPath w (entryChange e z a w) := by
  unfold Machine.entryChange
  split
  · exact refl w
  · split
    · exact .trans (.steady fun _ h => h.setTracker w _ _) (headEvent _ _ _)
    · exact refl w
  · exact .steady fun _ h => h.setTracker w _ _
  · exact .steady fun _ h => h.setTracker w _ _

theorem gapEnds (e : Env) (z) (w : Work) : HaltPath w (gapEnds e z w) := by
  unfold Machine.gapEnds
  split
  · split
    · exact .steady fun _ h => h.setTracker w _ _
    · exact .trans (.steady fun _ h => h.setTracker w _ _) (tailEvent _ _ _)
  · exact .steady fun _ h => h.setTracker w _ _
  · exact refl w
  · exact refl w
  · exact refl w
  · exact refl w

theorem limitEnds (e : Env) (z) (w : Work) : HaltPath w (limitEnds e z w) := by
  unfold Machine.limitEnds
  split
  · exact close e (.trans (.steady fun _ h => h.setTracker w _ _) (raiseAtZone _ _ _ _ _ _))
  · exact refl w
  · exact refl w
  · exact refl w

theorem judgeDisagree (e : Env) (z b) (w : Work) : HaltPath w (judgeDisagree e z b w) := by
  unfold Machine.judgeDisagree
  split
  · exact close e (.trans (.steady fun _ h => h.setSupervision w _ _) (raiseAtZone _ _ _ _ _ _))
  · exact .steady fun _ h => h.trans (h.setSupervision w _ _) (h.posts _ _)

theorem feedbackChange (e : Env) (z) (w : Work) : HaltPath w (feedbackChange e z w) := by
  unfold Machine.feedbackChange
  split
  · exact refl w
  · split
    · exact refl w
    · split
      · exact refl w
      · exact judgeDisagree _ _ _ _
    · split
      · exact .steady fun _ h => h.setSupervision w _ _
      · exact refl w

theorem confirmEnds (e : Env) (z) (w : Work) : HaltPath w (confirmEnds e z w) := by
  unfold Machine.confirmEnds
  split
  · exact refl w
  · split
    · split
      · exact .steady fun _ h => h.setSupervision w _ _
      · exact judgeDisagree _ _ _ _
    · exact refl w
    · exact refl w

theorem travelEnds (e : Env) (t) (w : Work) : HaltPath w (travelEnds e t w) := by
  unfold Machine.travelEnds; split
  · exact close e (raiseAtZone _ _ _ _ _ _)
  · exact refl w

/-- The record of a switch that has lost its position (R131). -/
theorem lost_steady {R : Work → Work → Prop} (h : Steady R) (w : Work) (n) :
    R w (w.modifySwitch n fun s =>
      { s with state := .unknown, attempts := 0, driveStraight := false, driveDiverge := false }) :=
  h.switch w n _ (fun _ _ => drivesAgree_still _ rfl rfl rfl) (fun _ hs => by cases hs)

theorem losePosition (e : Env) (n) (w : Work) : HaltPath w (losePosition e n w) := by
  unfold Machine.losePosition
  dsimp only
  split
  · refine .trans (.steady fun R h => ?_) (respondHalt _ _ _)
    exact h.trans (lost_steady h w n) (h.trans (h.applyRelease e _) (h.post _ _ _ _ _ _))
  · refine .steady fun R h => ?_
    exact h.trans (lost_steady h w n) (h.trans (h.applyRelease e _) (h.post _ _ _ _ _ _))

theorem positionChange (e : Env) (n) (w : Work) : HaltPath w (positionChange e n w) := by
  unfold Machine.positionChange
  split
  · split
    · exact refl w
    · exact close e (losePosition _ _ _)
  · split
    · exact close e (.steady fun _ h => h.arrive n w)
    · exact refl w
  · exact refl w
  · exact refl w
  · exact refl w

theorem attemptEnds (e : Env) (n) (w : Work) : HaltPath w (attemptEnds e n w) := by
  unfold Machine.attemptEnds
  split
  · exact refl w
  · next s hs =>
    split
    · next hm =>
      split
      · exact .steady fun _ h => h.retryMove e n _ _ _ w hs hm
      · exact close e (.steady fun _ h => h.failMove _ _ _ _)
    · exact refl w
    · exact refl w
    · exact refl w

theorem lapseTrack (p c) (e : Env) (w : Work) : HaltPath w (lapseTrack p c e w) := by
  unfold Machine.lapseTrack
  dsimp only
  apply close
  have h1 : HaltPath w ((lapseSection e p (lapseClaims p w)).post [0] .leaseLapsed (.port p) (lapseCauseCode c)) :=
    .steady fun _ h => h.trans (h.lapseClaims p w) (h.trans (h.lapseSection e p _) (h.posts _ _))
  split
  · exact .trans h1 (raiseHalt _ _ _ _ _ _)
  · exact h1

end HaltPath

end Sys2Proof.Machine
end

