-- ==== Sys2Proof/Laws/Holds.lean ====
section
/-! SUPPORT. The release rule: what applying it afresh leaves, and which operations leave its conditions alone (R28, R29). -/

namespace Sys2Proof.Machine

/-! ### The rule as computed and as stated -/

/-- The leg from the zone is held whole, as computed. -/
theorem holdsWholeLeg_iff (w : Track) (r : Train) (z : ZoneId) :
    holdsWholeLeg w r z = true ↔ ∃ g ∈ r.authority, g.start = z ∧ g.started = false ∧
      ∀ q ∈ g.reqs, w.switchState q.switch = some (.settled q.position) := by
  have hs : ∀ q : Requirement, w.settledIn q = true ↔ w.switchState q.switch = some (.settled q.position) := by
    intro q
    unfold Track.settledIn Track.switchState
    cases w.switches[q.switch] <;> simp
  unfold holdsWholeLeg
  simp only [List.any_eq_true, Bool.and_eq_true, decide_eq_true_eq, Bool.not_eq_true', List.all_eq_true, hs, and_assoc]

/-- Case (a), as computed. -/
theorem trainReleases_iff (w : Track) (z : ZoneId) : trainReleases w z = true ↔ w.trainMayPass z := by
  unfold trainReleases Track.trainMayPass trainIds
  simp only [Bool.and_eq_true, decide_eq_true_eq, List.any_eq_true, List.mem_finRange, true_and, Bool.or_eq_true,
    holdsWholeLeg_iff]

/-- Case (b), as computed. -/
theorem sectionReleases_iff (w : Track) (z : ZoneId) : sectionReleases w z = true ↔ w.masterReleases z := by
  unfold sectionReleases Track.masterReleases Track.heldSection
  constructor
  · intro h
    split at h
    · next p hz =>
      split at h
      · next x hx =>
        simp only [Bool.and_eq_true, decide_eq_true_eq, Bool.not_eq_true', decide_eq_false_iff_not] at h
        split at hx
        · next y hy => cases hx; exact ⟨h.2, p, _, hz, hy, h.1⟩
        · cases hx
        · cases hx
      · cases h
    · cases h
  · rintro ⟨hm, p, x, hz, hx, hr⟩
    rw [hz]
    dsimp only
    rw [hx]
    simp [hr, hm]

/-- The hold the rule gives, as computed. -/
theorem wantedHold_iff (w : Track) (z : ZoneId) :
    wantedHold w z = .released ↔ w.trainMayPass z ∨ w.masterReleases z := by
  unfold wantedHold
  rw [← trainReleases_iff, ← sectionReleases_iff, ← Bool.or_eq_true]
  split
  · next h => simp [h]
  · next h => simp [h]

/-- The rule, said of holds. -/
theorem holdsFollow_iff (w : Track) :
    w.holdsFollow ↔ ∀ z x, w.hold z = some x → (x = .released ↔ w.trainMayPass z ∨ w.masterReleases z) := by
  unfold Track.holdsFollow Track.hold
  constructor
  · intro h z x hx
    cases hr : w.zones[z] with
    | none => rw [hr] at hx; cases hx
    | some r =>
      rw [hr] at hx
      cases hb : r.brake with
      | none => rw [Option.bind_some, hb] at hx; cases hx
      | some b =>
        rw [Option.bind_some, hb] at hx
        cases hx
        exact h z r b hr hb
  · intro h z r b hr hb
    apply h z b.hold
    rw [hr, Option.bind_some, hb]
    rfl

/-! ### Tracks on which the rule reads the same -/

/-- The request of a port's held section for a zone. -/
def Track.requestOf (w : Track) (p : PortId) (z : ZoneId) : Option Hold := (w.heldSection p).map (·.request z)

/-- What the release rule reads of a leg entry. -/
def LegEntry.ruled (g : LegEntry) : ZoneId × List ZoneId × Bool × List Requirement := (g.start, g.zones, g.started, g.reqs)

/-- The zones ahead, by what the rule reads. -/
theorem ahead_ruled (r : Train) : r.ahead = (r.authority.map LegEntry.ruled).flatMap (·.2.1) := by
  unfold Train.ahead
  rw [List.flatMap_map]
  rfl

/-- Some leg entry, by what the rule reads. -/
theorem exists_ruled (l : List LegEntry) (p : ZoneId → Bool → List Requirement → Prop) :
    (∃ g ∈ l, p g.start g.started g.reqs) ↔ ∃ x ∈ l.map LegEntry.ruled, p x.1 x.2.2.1 x.2.2.2 := by
  simp only [List.mem_map, exists_exists_and_eq_and]
  rfl

/-- Everything the release rule reads, and every hold, are the same. -/
structure SameRule (a b : Track) : Prop where
  mode : b.mode = a.mode
  hold : ∀ z, b.hold z = a.hold z
  handed : ∀ z p, b.zoneState z = some (.handed p) ↔ a.zoneState z = some (.handed p)
  footprint : ∀ t : TrainId, (b.trains[t]).footprint = (a.trains[t]).footprint
  authority : ∀ t : TrainId, (b.trains[t]).authority.map LegEntry.ruled = (a.trains[t]).authority.map LegEntry.ruled
  settled : ∀ n q, b.switchState n = some (.settled q) ↔ a.switchState n = some (.settled q)
  request : ∀ p z, b.requestOf p z = a.requestOf p z

theorem SameRule.refl (a : Track) : SameRule a a :=
  ⟨rfl, fun _ => rfl, fun _ _ => Iff.rfl, fun _ => rfl, fun _ => rfl, fun _ _ => Iff.rfl, fun _ _ => rfl⟩

theorem SameRule.trans {a b c : Track} (h : SameRule a b) (k : SameRule b c) : SameRule a c :=
  ⟨k.mode.trans h.mode, fun z => (k.hold z).trans (h.hold z), fun z p => (k.handed z p).trans (h.handed z p),
   fun t => (k.footprint t).trans (h.footprint t), fun t => (k.authority t).trans (h.authority t),
   fun n q => (k.settled n q).trans (h.settled n q), fun p z => (k.request p z).trans (h.request p z)⟩

/-- Case (b) by the request of the section. -/
theorem masterReleases_iff (w : Track) (z : ZoneId) :
    w.masterReleases z ↔ w.mode ≠ .estopped ∧ ∃ p, w.zoneState z = some (.handed p) ∧ w.requestOf p z = some .released := by
  unfold Track.masterReleases Track.requestOf Track.heldSection
  constructor
  · rintro ⟨hm, p, x, hz, hx, hr⟩
    refine ⟨hm, p, hz, ?_⟩
    rw [hx]
    simp [hr]
  · rintro ⟨hm, p, hz, hr⟩
    cases hx : w.sections[p] with
    | none => rw [hx] at hr; cases hr
    | claimed => rw [hx] at hr; cases hr
    | held x =>
      rw [hx] at hr
      exact ⟨hm, p, x, hz, hx, by simpa [hx] using hr⟩

theorem SameRule.trainMayPass {a b : Track} (h : SameRule a b) (z : ZoneId) : b.trainMayPass z ↔ a.trainMayPass z := by
  unfold Track.trainMayPass
  have hl : ∀ (w : Track) (t : TrainId), (∃ g ∈ (w.trains[t]).authority, g.start = z ∧ g.started = false ∧
      ∀ q ∈ g.reqs, w.switchState q.switch = some (.settled q.position)) ↔
      ∃ x ∈ (w.trains[t]).authority.map LegEntry.ruled, x.1 = z ∧ x.2.2.1 = false ∧
        ∀ q ∈ x.2.2.2, w.switchState q.switch = some (.settled q.position) := fun w t =>
    exists_ruled _ fun y b qs => y = z ∧ b = false ∧ ∀ q ∈ qs, w.switchState q.switch = some (.settled q.position)
  simp only [hl]
  simp only [ahead_ruled, h.mode, h.footprint, h.authority, h.settled]

theorem SameRule.masterReleases {a b : Track} (h : SameRule a b) (z : ZoneId) :
    b.masterReleases z ↔ a.masterReleases z := by
  rw [masterReleases_iff, masterReleases_iff]
  simp only [h.mode, h.handed, h.request]

/-- Holds that follow the rule still do. -/
theorem SameRule.follows {a b : Track} (h : SameRule a b) (f : a.holdsFollow) : b.holdsFollow := by
  rw [holdsFollow_iff] at *
  intro z x hx
  rw [h.hold] at hx
  rw [h.trainMayPass, h.masterReleases]
  exact f z x hx

/-! ### Applying the rule afresh -/

/-- The holds after the rule has been applied to every zone (R29). -/
theorem commandHolds_hold (e : Env) (w : Work) (z : ZoneId) :
    (commandHolds e w).hold z = (w.hold z).map fun _ => wantedHold w.toTrack z := by
  unfold commandHolds Track.hold
  rw [vector_get_ofFn]
  cases w.zones[z] with
  | none => rfl
  | some r =>
    simp only [Option.map_some, Option.bind_some, releaseZone]
    cases r.brake with
    | none => rfl
    | some b =>
      simp only [Option.map_some]
      unfold Brake.command
      split
      · next h => rw [h]
      · rfl

/-- Applying the rule changes no zone's state. -/
theorem commandHolds_zoneState (e : Env) (w : Work) (z : ZoneId) : (commandHolds e w).zoneState z = w.zoneState z := by
  unfold commandHolds Track.zoneState
  rw [vector_get_ofFn]
  cases w.zones[z] <;> rfl

/-- A train record with the same footprint and authority in the place of every train's. -/
theorem sameRule_trains (w : Work) (v : Vector Train 8)
    (hf : ∀ t : TrainId, (v[t]).footprint = (w.trains[t]).footprint)
    (ha : ∀ t : TrainId, (v[t]).authority = (w.trains[t]).authority) : SameRule w.toTrack { w.toTrack with trains := v } :=
  ⟨rfl, fun _ => rfl, fun _ _ => Iff.rfl, hf, fun t => congrArg _ (ha t), fun _ _ => Iff.rfl, fun _ _ => rfl⟩

/-- Trains that become CLEARED keep footprint and authority (R65). -/
theorem clearTrains_same (e : Env) (w : Work) : SameRule w.toTrack (clearTrains e w).toTrack := by
  refine sameRule_trains w _ (fun t => ?_) (fun t => ?_) <;>
  · rw [vector_get_ofFn]
    unfold clearTrain
    split <;> first | rfl | (split <;> rfl)

/-- After the rule has been applied afresh, every hold follows it (R29). -/
theorem applyRelease_follows (e : Env) (w : Work) : (applyRelease e w).holdsFollow := by
  apply (clearTrains_same e (commandHolds e w)).follows
  rw [holdsFollow_iff]
  intro z x hx
  rw [commandHolds_hold] at hx
  cases h : w.hold z with
  | none => rw [h] at hx; cases hx
  | some y =>
    rw [h] at hx
    cases hx
    rw [wantedHold_iff]
    have hm : (commandHolds e w).masterReleases z ↔ w.masterReleases z := by
      unfold Track.masterReleases
      simp only [commandHolds_zoneState, commandHolds_mode, commandHolds_sections]
    have ht : (commandHolds e w).trainMayPass z ↔ w.trainMayPass z := by
      unfold Track.trainMayPass Track.switchState
      simp only [commandHolds_mode, commandHolds_trains, commandHolds_switches]
    rw [hm, ht]

/-! ### Operations that leave the rule's conditions alone -/

theorem post_same (w : Work) (n nm s d1 d2) : SameRule w.toTrack (w.post n nm s d1 d2).toTrack := .refl _

theorem modifyTrain_same (w : Work) (t : TrainId) (f : Train → Train) (hf : (f w.trains[t]).footprint = (w.trains[t]).footprint)
    (ha : (f w.trains[t]).authority = (w.trains[t]).authority) : SameRule w.toTrack (w.modifyTrain t f).toTrack := by
  refine sameRule_trains w _ (fun u => ?_) (fun u => ?_) <;>
  · rw [vector_get_set]
    split
    · next h => subst h; assumption
    · rfl

/-- Two tracks that differ in claims, line and switches alone, the settled switches being the same. -/
theorem sameRule_switches (w : Track) (l m : List Claim) (k : Byte) (v : Vector (Option Switch) 4)
    (h : ∀ (n : SwitchId) q, (v[n]).map (·.state) = some (.settled q) ↔ w.switchState n = some (.settled q)) :
    SameRule w { w with claims := l, line := m, nextSeq := k, switches := v } :=
  ⟨rfl, fun _ => rfl, fun _ _ => Iff.rfl, fun _ => rfl, fun _ => rfl, h, fun _ _ => rfl⟩

theorem unserveSwitch_settled (cs : List Claim) (n : SwitchId) (s : Switch) (q : Position) :
    (unserveSwitch cs n s).state = .settled q ↔ s.state = .settled q := by
  unfold unserveSwitch
  split
  · next h =>
    split
    · rw [h]; simp
    · rfl
  · rfl

theorem dropClaims_same (gone : Claim → Bool) (w : Work) : SameRule w.toTrack (dropClaims gone w).toTrack := by
  unfold dropClaims
  refine sameRule_switches w.toTrack _ _ _ _ (fun n q => ?_)
  unfold Track.switchState
  rw [unserve_switch]
  cases w.switches[n] with
  | none => rfl
  | some s => simp [unserveSwitch_settled]

theorem arriveClaim_same (b t) (w : Work) : SameRule w.toTrack (arriveClaim b t w).toTrack := by
  unfold arriveClaim
  dsimp only
  split <;> exact sameRule_switches w.toTrack _ _ _ _ (fun _ _ => Iff.rfl)

theorem postAbort_same (t o c) (w : Work) : SameRule w.toTrack (postAbort t o c w).toTrack := by
  unfold postAbort; split <;> exact .refl _

theorem standIfClaimless_same (t) (w : Work) : SameRule w.toTrack (standIfClaimless t w).toTrack := by
  apply modifyTrain_same <;>
  · split
    · split <;> rfl
    · rfl

/-- A WAITING claim, or a SECTION claim, is withdrawn (R110). -/
theorem withdrawClaim_same (c : Claim) (w : Work) (h : c.isWaiting = true ∨ ∃ g, c.body = .sectionOf g) :
    SameRule w.toTrack (withdrawClaim c w).toTrack := by
  have h1 : releaseEntryOf c w = w := by
    unfold releaseEntryOf
    split
    · next hs hb =>
      rcases h with h | ⟨g, h⟩
      · unfold Claim.isWaiting at h; rw [hs] at h; cases h
      · rw [h] at hb; cases hb
    · rfl
  unfold withdrawClaim
  dsimp only
  rw [h1]
  split
  · exact (dropClaims_same _ w).trans (standIfClaimless_same _ _)
  · exact dropClaims_same _ w

theorem formClaim_same (e : Env) (t b fs o wait) (w w' : Work) (hf : formClaim e t b fs o wait w = .claim w') :
    SameRule w.toTrack w'.toTrack := by
  unfold formClaim at hf
  repeat' split at hf
  all_goals first | cases hf; exact arriveClaim_same _ _ _ | cases hf

theorem routeEnd_same (e : Env) (t) (w : Work) : SameRule w.toTrack (routeEnd e t w).toTrack :=
  modifyTrain_same w t (fun r => ({ r with state := .standing } : Train).mapRide fun d => { d with atEnd := true }) rfl rfl

theorem formAtRest_same (e : Env) (t o wait) (w : Work) : SameRule w.toTrack (formAtRest e t o wait w).toTrack := by
  unfold formAtRest
  split
  · exact .refl _
  · split
    · next hf => exact (formClaim_same _ _ _ _ _ _ _ _ hf).trans (modifyTrain_same _ _ _ rfl rfl)
    · exact routeEnd_same e t w
    · exact .refl _

theorem formOnward_same (e : Env) (t b fs) (w : Work) : SameRule w.toTrack (formOnward e t b fs w).toTrack := by
  unfold formOnward
  split
  · next hf => exact formClaim_same _ _ _ _ _ _ _ _ hf
  · exact .refl _
  · exact .refl _

/-- The mark of an onward claim in the leg entries is nothing to the rule (log 14). -/
theorem noteOnward_same (w : Work) (t : TrainId) : SameRule w.toTrack (w.modifyTrain t noteOnward).toTrack := by
  refine ⟨rfl, fun _ => rfl, fun _ _ => Iff.rfl, fun u => ?_, fun u => ?_, fun _ _ => Iff.rfl, fun _ _ => rfl⟩ <;>
  · unfold Work.modifyTrain Work.setTrain
    rw [vector_get_set]
    split
    · next h => subst h; first | rfl | exact List.map_map.trans rfl
    · rfl

theorem onwardAtGrant_same (e : Env) (g) (w : Work) : SameRule w.toTrack (onwardAtGrant e g w).toTrack := by
  unfold onwardAtGrant; split
  · split
    · split
      · next hf => exact (formClaim_same _ _ _ _ _ _ _ _ hf).trans (noteOnward_same _ _)
      · exact .refl _
      · exact .refl _
    · exact .refl _
  · exact .refl _

theorem postGrant_same (g) (w : Work) : SameRule w.toTrack (postGrant g w).toTrack := by
  unfold postGrant; dsimp only; split <;> exact .refl _

theorem depart_same (e : Env) (t z) (w : Work) : SameRule w.toTrack (depart e t z w).toTrack := by
  have h := modifyTrain_same w t
    (fun r => { r with state := .running, departure := none, travel := (e.zone z).bind travelMs }) rfl rfl
  unfold depart postDeparted
  split
  · split <;> exact h
  · exact h

theorem setSupervision_same (w : Work) (z s) : SameRule w.toTrack (w.setSupervision z s).toTrack := by
  refine ⟨rfl, fun y => ?_, fun y p => ?_, fun _ => rfl, fun _ => rfl, fun _ _ => Iff.rfl, fun _ _ => rfl⟩
  · unfold Track.hold Work.setSupervision
    rw [vector_get_set]
    split
    · next h =>
      subst h
      cases w.zones[z] with
      | none => rfl
      | some r => simp only [Option.map_some, Option.bind_some]; cases r.brake <;> rfl
    · rfl
  · unfold Track.zoneState Work.setSupervision
    rw [vector_get_set]
    split
    · next h => subst h; cases w.zones[z] <;> exact Iff.rfl
    · exact Iff.rfl

/-- A zone that is not HANDED takes a state other than HANDED. -/
theorem setZone_same (w : Work) (z : ZoneId) (s : ZoneState) (hs : ∀ p, s ≠ .handed p)
    (hz : ∀ p, w.zoneState z ≠ some (.handed p)) : SameRule w.toTrack (w.setZone z s).toTrack := by
  refine ⟨rfl, fun y => ?_, fun y p => ?_, fun _ => rfl, fun _ => rfl, fun _ _ => Iff.rfl, fun _ _ => rfl⟩
  · unfold Track.hold Work.setZone
    rw [vector_get_set]
    split
    · next h => subst h; cases w.zones[z] <;> rfl
    · rfl
  · have key : (w.setZone z s).zoneState y = if z = y then (w.zoneState z).map (fun _ => s) else w.zoneState y := by
      unfold Track.zoneState Work.setZone
      rw [vector_get_set]
      split
      · cases w.zones[z] <;> rfl
      · rfl
    rw [key]
    split
    · next h =>
      subst h
      constructor
      · intro hp
        cases hx : w.zoneState z with
        | none => rw [hx] at hp; cases hp
        | some x => rw [hx] at hp; cases hp; exact absurd rfl (hs p)
      · intro hp; exact absurd hp (hz p)
    · exact Iff.rfl

/-- A section whose record keeps its hold requests. -/
theorem setSection_same (w : Work) (p : PortId) (r : Section)
    (h : ∀ z, (match r with | .held x => some (x.request z) | .none => none | .claimed => none) = w.requestOf p z) :
    SameRule w.toTrack (w.setSection p r).toTrack := by
  refine ⟨rfl, fun _ => rfl, fun _ _ => Iff.rfl, fun _ => rfl, fun _ => rfl, fun _ _ => Iff.rfl, fun q z => ?_⟩
  by_cases hq : p = q
  · subst hq
    rw [← h z]
    unfold Track.requestOf Track.heldSection Work.setSection
    rw [vector_get_set, if_pos rfl]
    cases r <;> rfl
  · unfold Track.requestOf Track.heldSection Work.setSection
    rw [vector_get_set, if_neg hq]

theorem judgeYieldOf_same (p) (w : Work) : SameRule w.toTrack (judgeYieldOf p w).toTrack := by
  unfold judgeYieldOf
  split
  · exact .refl _
  · next x hx =>
    have hr : ∀ (y : Bool) z, some ({ x with yield := y }.request z) = w.requestOf p z := by
      intro y z; unfold Track.requestOf; rw [hx]; rfl
    split
    · exact setSection_same _ _ _ (hr false)
    · split
      · exact .refl _
      · exact setSection_same _ _ _ (hr true)

/-- A fold of operations that leave the rule's conditions alone. -/
theorem foldl_same {α : Type} (f : Work → α → Work) (hf : ∀ w x, SameRule w.toTrack (f w x).toTrack) (xs : List α)
    (w : Work) : SameRule w.toTrack (xs.foldl f w).toTrack := by
  induction xs generalizing w with
  | nil => exact .refl _
  | cons x xs ih => exact (hf w x).trans (ih _)

theorem judgeYield_same (w : Work) : SameRule w.toTrack (judgeYield w).toTrack :=
  foldl_same _ (fun w p => judgeYieldOf_same p w) _ w

/-! ### The rule through evaluations and the close of events -/

/-- A grant leaves every hold as the rule gives (R100, R105). -/
theorem grant_follows (e : Env) (i c) (w : Work) : (grant e i c w).holdsFollow := by
  unfold grant
  split
  · exact ((onwardAtGrant_same e _ _).trans (postGrant_same _ _)).follows (applyRelease_follows e _)
  · exact applyRelease_follows e _

theorem scanClaims_follows (e : Env) (fuel i g) (w : Work) (h : w.holdsFollow) : (scanClaims e fuel i g w).holdsFollow := by
  induction fuel generalizing i g w with
  | zero => exact h
  | succ k ih =>
    unfold scanClaims
    split
    · split
      · exact ih _ _ _ h
      · exact h
    · split
      · exact ih _ _ _ (grant_follows e i _ w)
      · exact ih _ _ _ h

theorem evaluate_follows (e : Env) (w : Work) (h : w.holdsFollow) : (evaluate e w).holdsFollow :=
  (judgeYield_same _).follows (scanClaims_follows e _ _ _ w h)

theorem conclude_follows (e : Env) (w : Work) : (conclude e w).holdsFollow :=
  evaluate_follows e _ (applyRelease_follows e _)

theorem arrivals_follows (e : Env) (k) (w : Work) (h : w.holdsFollow) : (arrivals e k w).holdsFollow := by
  induction k generalizing w with
  | zero => exact h
  | succ k ih =>
    unfold arrivals
    split
    · exact h
    · exact ih _ (conclude_follows e _)

/-- After an event has closed, every hold follows the release rule, whatever the event did. -/
theorem closeEvent_follows (e : Env) (w : Work) : (closeEvent e w).holdsFollow :=
  arrivals_follows e 4 _ (conclude_follows e w)

/-- An evaluation that closes an event keeps every hold with the release rule. -/
theorem closeEval_follows (e : Env) (w : Work) (h : w.holdsFollow) : (closeEval e w).holdsFollow :=
  arrivals_follows e 4 _ (evaluate_follows e w h)

end Sys2Proof.Machine
end

