-- ==== Sys2Proof/Laws/Replies.lean ====
section
/-! SUPPORT. What a long reply carries (R179): the packing of items, said once by `packReply_carries`. -/

namespace Sys2Proof.Machine

/-! ### The bytes of items -/

@[simp] theorem itemCount_nil : itemCount [] = 0 := rfl
@[simp] theorem itemCount_cons (x : Part) (xs : List Part) : itemCount (x :: xs) = x.items.length + itemCount xs := by
  simp [itemCount]
@[simp] theorem itemCount_append (xs ys : List Part) : itemCount (xs ++ ys) = itemCount xs + itemCount ys := by
  simp [itemCount]

@[simp] theorem carriedBytes_nil (a b i : Nat) : carriedBytes a b i [] = [] := rfl

theorem carriedBytes_append (a b i : Nat) (xs ys : List Part) :
    carriedBytes a b i (xs ++ ys) = carriedBytes a b i xs ++ carriedBytes a b (i + itemCount xs) ys := by
  induction xs generalizing i with
  | nil => simp
  | cons x xs ih => cases x <;> simp [carriedBytes, Part.items, ih, Nat.add_assoc]

/-- Items behind the last one carried give no byte. -/
theorem carriedBytes_behind {a b i : Nat} (h : b ≤ i) (xs : List Part) : carriedBytes a b i xs = [] := by
  induction xs generalizing i with
  | nil => rfl
  | cons x xs ih =>
    cases x with
    | field bs => simp only [carriedBytes]; rw [if_neg (by omega), ih (by omega)]; rfl
    | list es =>
      have : b - i = 0 := by omega
      simp only [carriedBytes, this]
      rw [if_neg (by simp; omega), ih (by omega)]; rfl

/-- Items before the first one carried give no byte. -/
theorem carriedBytes_before {a b i : Nat} (xs : List Part) (h : i + itemCount xs < a) :
    carriedBytes a b i xs = [] := by
  induction xs generalizing i with
  | nil => rfl
  | cons x xs ih =>
    simp only [itemCount_cons] at h
    cases x with
    | field bs =>
      simp only [Part.items, List.length_singleton] at h
      simp only [carriedBytes]; rw [if_neg (by omega), ih (by omega)]; rfl
    | list es =>
      simp only [Part.items] at h
      have : (es.take (b - i)).drop (a - i) = [] := by
        apply List.drop_eq_nil_of_le; simp; omega
      simp only [carriedBytes, this]
      rw [if_neg (by simp; omega), ih (by omega)]; rfl

theorem emptyEnd_field (xs : List Part) (bs : List Byte) : emptyEnd (xs ++ [.field bs]) = 0 := by simp [emptyEnd]
theorem emptyEnd_empty (xs : List Part) : emptyEnd (xs ++ [.list []]) = emptyEnd xs + 1 := by simp [emptyEnd]
theorem emptyEnd_list (xs : List Part) (e : List Byte) (es : List (List Byte)) :
    emptyEnd (xs ++ [.list (e :: es)]) = 0 := by simp [emptyEnd]

/-- What a field behind some parts gives. -/
theorem carriedBytes_field (a b : Nat) (xs : List Part) (bs : List Byte) :
    carriedBytes a b 0 (xs ++ [.field bs]) = carriedBytes a b 0 xs ++
      (if a ≤ itemCount xs ∧ itemCount xs < b then bs else []) := by
  simp [carriedBytes_append, carriedBytes]

/-- What a list with entries behind some parts gives. -/
theorem carriedBytes_list (a b : Nat) (xs : List Part) (e : List Byte) (es : List (List Byte)) :
    carriedBytes a b 0 (xs ++ [.list (e :: es)]) = carriedBytes a b 0 xs ++
      let i := itemCount xs
      let kept := ((e :: es).take (b - i)).drop (a - i)
      (if kept = [] then [] else byteOf kept.length :: kept.flatten) := by
  simp only [carriedBytes_append, carriedBytes, Nat.zero_add, List.append_nil]
  congr 1
  split <;> rename_i h <;> simp_all

/-- What an empty list behind some parts gives. -/
theorem carriedBytes_empty (a b : Nat) (xs : List Part) :
    carriedBytes a b 0 (xs ++ [.list []]) = carriedBytes a b 0 xs ++
      (if a ≤ itemCount xs ∧ itemCount xs < b then [0] else []) := by
  simp only [carriedBytes_append, carriedBytes, Nat.zero_add, List.append_nil]
  congr 1
  split <;> rename_i h <;> simp_all [byteOf]

/-- With an item behind them, the parts give their items and the counts of the empty lists at their end. -/
theorem carriedBytes_past (a b : Nat) (xs : List Part) (ha : a ≤ itemCount xs)
    (hb : itemCount xs < b) :
    carriedBytes a b 0 xs =
      carriedBytes a (itemCount xs) 0 xs ++ List.replicate (emptyEnd xs) 0 := by
  induction xs using List.reverseRecOn generalizing b with
  | nil => simp [emptyEnd]
  | append_singleton xs x ih =>
    simp only [itemCount_append, itemCount_cons, itemCount_nil, Nat.add_zero] at ha hb ⊢
    have same : ∀ c d, itemCount xs < c → itemCount xs < d →
        carriedBytes a c 0 xs = carriedBytes a d 0 xs := by
      intro c d hc hd
      by_cases h : a ≤ itemCount xs
      · rw [ih c h hc, ih d h hd]
      · rw [carriedBytes_before _ (by omega), carriedBytes_before _ (by omega)]
    cases x with
    | field bs =>
      simp only [Part.items, List.length_singleton] at ha hb ⊢
      rw [carriedBytes_field, carriedBytes_field, emptyEnd_field, same b _ (by omega) (Nat.lt_succ_self _)]
      have h1 : itemCount xs < b := by omega
      simp [h1]
    | list es =>
      cases es with
      | nil =>
        simp only [Part.items, List.length_nil, Nat.add_zero] at ha hb ⊢
        rw [carriedBytes_empty, carriedBytes_empty, emptyEnd_empty, ih b ha hb, if_pos ⟨ha, hb⟩, if_neg (by omega)]
        simp [List.replicate_succ']
      | cons e es =>
        simp only [Part.items, List.length_cons] at ha hb ⊢
        rw [carriedBytes_list, carriedBytes_list, emptyEnd_list, same b (itemCount xs + (es.length + 1)) (by omega) (by omega)]
        have h1 : (e :: es).take (b - itemCount xs) = e :: es :=
          List.take_of_length_le (by simp; omega)
        have h2 : (e :: es).take (itemCount xs + (es.length + 1) - itemCount xs) = e :: es :=
          List.take_of_length_le (by simp)
        simp only [h1, h2, List.replicate_zero, List.append_nil]

/-! ### The entries that fit -/

theorem fitting_le (room : Nat) (es : List (List Byte)) : fitting room es ≤ es.length := by
  induction es generalizing room with
  | nil => simp [fitting]
  | cons x xs ih =>
    unfold fitting; split
    · have := ih (room - x.length); simp; omega
    · simp

theorem fitting_fits (room : Nat) (es : List (List Byte)) : (es.take (fitting room es)).flatten.length ≤ room := by
  induction es generalizing room with
  | nil => simp [fitting]
  | cons x xs ih =>
    unfold fitting; split
    · have := ih (room - x.length)
      rw [Nat.add_comm, List.take_succ_cons, List.flatten_cons, List.length_append]; omega
    · simp

theorem fitting_next (room : Nat) (es : List (List Byte)) (h : fitting room es < es.length) :
    room < (es.take (fitting room es + 1)).flatten.length := by
  induction es generalizing room with
  | nil => simp at h
  | cons x xs ih =>
    unfold fitting at h ⊢; split
    · rename_i hx
      simp only [hx, if_true, List.length_cons] at h
      have := ih (room - x.length) (by omega)
      rw [Nat.add_comm 1, List.take_succ_cons, List.flatten_cons, List.length_append]; omega
    · simp; omega

/-! ### The packing -/

/-- What the packing of some parts has come to: still skipping, carrying, or cut at item `b`. -/
def packed (skip : Nat) (xs : List Part) (p : Packing) : Prop :=
  let i := itemCount xs
  (i < skip ∧ p = { skip := skip - i, room := 27, zeros := [], out := [], full := false, left := 0 }) ∨
  (skip ≤ i ∧ (carriedBytes skip i 0 xs).length ≤ 27 ∧
    p = { skip := 0, room := 27 - (carriedBytes skip i 0 xs).length, zeros := List.replicate (emptyEnd xs) 0
          out := carriedBytes skip i 0 xs, full := false, left := 0 }) ∨
  ∃ b, skip ≤ b ∧ b < i ∧ (carriedBytes skip b 0 xs).length ≤ 27 ∧ 27 < (carriedBytes skip (b + 1) 0 xs).length ∧
    p.full = true ∧ p.out = carriedBytes skip b 0 xs ∧ p.left = i - b

/-- The entries of a list behind the item carried last: `w` are the bytes up to the list's count, `n` the number of the first
entry carried. -/
theorem packEntries_packed {skip : Nat} {xs : List Part} {es all : List (List Byte)} {n : Nat} {out zeros : List Byte}
    (hs : skip ≤ n) (hne : es ≠ []) (hin : [] ∉ es) (hn : n + es.length = itemCount xs + all.length)
    (hall : all ≠ []) (hlen : out.length ≤ 27)
    (hnone : carriedBytes skip n 0 (xs ++ [.list all]) = out)
    (hsome : ∀ m, 0 < m → carriedBytes skip (n + m) 0 (xs ++ [.list all]) =
      out ++ zeros ++ byteOf (es.take m).length :: (es.take m).flatten) :
    packed skip (xs ++ [.list all])
      (packEntries { skip := 0, room := 27 - out.length, zeros := zeros, out := out, full := false, left := 0 } es) := by
  obtain ⟨e, rest, rfl⟩ := List.exists_cons_of_ne_nil hne
  obtain ⟨f, tl, rfl⟩ := List.exists_cons_of_ne_nil hall
  have hpos : 0 < e.length := List.length_pos_iff.2 fun h => hin (h ▸ List.mem_cons_self ..)
  have hi : itemCount (xs ++ [Part.list (f :: tl)]) = n + (e :: rest).length := by
    simp only [itemCount_append, itemCount_cons, itemCount_nil, Part.items, Nat.add_zero]
    omega
  have hle := fitting_le (27 - out.length - (zeros.length + 1)) (e :: rest)
  have hfit := fitting_fits (27 - out.length - (zeros.length + 1)) (e :: rest)
  have hnext := fitting_next (27 - out.length - (zeros.length + 1)) (e :: rest)
  unfold packEntries
  simp only []
  generalize hm : fitting (27 - out.length - (zeros.length + 1)) (e :: rest) = m at hle hfit hnext ⊢
  unfold packed
  simp only [hi]
  by_cases h0 : m = 0
  · subst h0
    rw [if_pos rfl]
    refine Or.inr (Or.inr ⟨n, hs, by simp, by rw [hnone]; exact hlen, ?_, rfl, hnone.symm, by simp⟩)
    rw [hsome 1 (by omega)]
    have := hnext (by simp)
    simp only [List.length_append, List.length_cons] at this ⊢
    simp only [Nat.zero_add] at this
    omega
  · rw [if_neg h0]
    have hroom : zeros.length + 1 < 27 - out.length := by
      by_contra hc
      have h1 : 27 - out.length - (zeros.length + 1) = 0 := by omega
      rw [h1] at hm
      have : fitting 0 (e :: rest) = 0 := by unfold fitting; rw [if_neg (by omega)]
      omega
    have htake : ((e :: rest).take m).length = m := by rw [List.length_take]; omega
    have hout := hsome m (by omega)
    rw [htake] at hout
    have hlen' : (out ++ zeros ++ byteOf m :: ((e :: rest).take m).flatten).length ≤ 27 := by
      simp only [List.length_append, List.length_cons]; omega
    by_cases hlt : m < (e :: rest).length
    · refine Or.inr (Or.inr ⟨n + m, by omega, by omega, by rw [hout]; exact hlen', ?_, by simpa using hlt, ?_, ?_⟩)
      · rw [Nat.add_assoc, hsome (m + 1) (by omega)]
        have := hnext hlt
        simp only [List.length_append, List.length_cons]; omega
      · rw [hout]; simp
      · simp only []; omega
    · have hmm : m = (e :: rest).length := by omega
      refine Or.inr (Or.inl ⟨by omega, by rw [← hmm, hout]; exact hlen', ?_⟩)
      rw [← hmm, hout, emptyEnd_list]
      have : m - m = 0 := Nat.sub_self m
      simp only [List.append_assoc, List.singleton_append, List.length_append, List.length_cons, Packing.mk.injEq,
        List.replicate_zero, true_and]
      exact ⟨by omega, by simp [hmm], by omega⟩

theorem packed_step {skip : Nat} {xs : List Part} {p : Packing} (h : packed skip xs p) (x : Part)
    (hx : ∀ es, x = .list es → [] ∉ es) : packed skip (xs ++ [x]) (packPart p x) := by
  have hcount : itemCount (xs ++ [x]) = itemCount xs + x.items.length := by
    simp
  rcases h with ⟨hlt, rfl⟩ | ⟨hge, hlen, rfl⟩ | ⟨b, hb, hbi, hlen, hover, hfull, hout, hleft⟩
  · cases x with
    | field bs =>
      simp only [packPart, packField]
      rw [if_neg (by simp), if_pos (by omega)]
      unfold packed; simp only [hcount, Part.items, List.length_singleton]
      by_cases h1 : itemCount xs + 1 < skip
      · exact Or.inl ⟨h1, by simp; omega⟩
      · have hc : carriedBytes skip (itemCount xs + 1) 0 (xs ++ [.field bs]) = [] := by
          rw [carriedBytes_field, carriedBytes_before _ (by omega), if_neg (by omega)]; rfl
        exact Or.inr (Or.inl ⟨by omega, by simp [hc], by simp [hc, emptyEnd_field]; omega⟩)
    | list es =>
      cases es with
      | nil =>
        simp only [packPart, packList]
        rw [if_neg (by simp), if_pos (by omega)]
        unfold packed; simp only [hcount, Part.items, List.length_nil, Nat.add_zero]
        exact Or.inl ⟨hlt, trivial⟩
      | cons e es =>
        simp only [packPart, packList]
        rw [if_neg (by simp)]
        by_cases h1 : (e :: es).length ≤ skip - itemCount xs
        · rw [if_pos h1]
          unfold packed; simp only [hcount, Part.items]
          by_cases h2 : itemCount xs + (e :: es).length < skip
          · exact Or.inl ⟨h2, by simp only [Packing.mk.injEq, and_true]; omega⟩
          · have hc : carriedBytes skip (itemCount xs + (e :: es).length) 0 (xs ++ [.list (e :: es)]) = [] := by
              rw [carriedBytes_list, carriedBytes_before _ (by omega)]
              have : ((e :: es).take (itemCount xs + (e :: es).length - itemCount xs)).drop
                  (skip - itemCount xs) = [] :=
                List.drop_eq_nil_of_le (by rw [List.length_take]; omega)
              simp only [this, if_true, List.append_nil]
            refine Or.inr (Or.inl ⟨by omega, by rw [hc]; simp, ?_⟩)
            rw [hc, emptyEnd_list]
            simp only [Packing.mk.injEq, List.replicate_zero, and_true, List.length_nil, Nat.sub_zero]; omega
        · rw [if_neg h1, if_pos (by omega)]
          refine packEntries_packed (n := skip) (out := []) (zeros := []) (Nat.le_refl _) ?_ ?_ ?_ (by simp) (by simp) ?_ ?_
          · exact fun hn => h1 (by have := List.drop_eq_nil_iff.1 hn; omega)
          · exact fun hn => hx _ rfl (List.mem_of_mem_drop hn)
          · rw [List.length_drop]; omega
          · rw [carriedBytes_list, carriedBytes_before _ (by omega)]
            have : ((e :: es).take (skip - itemCount xs)).drop (skip - itemCount xs) = [] :=
              List.drop_eq_nil_of_le (by rw [List.length_take]; omega)
            simp only [this, if_true, List.append_nil]
          · intro m hm
            rw [carriedBytes_list, carriedBytes_before _ (by omega)]
            have h2 : skip + m - itemCount xs = skip - itemCount xs + m := by omega
            have h3 : ((e :: es).take (skip + m - itemCount xs)).drop (skip - itemCount xs) =
                ((e :: es).drop (skip - itemCount xs)).take m := by rw [h2, List.take_drop]
            have h4 : ((e :: es).drop (skip - itemCount xs)).take m ≠ [] := by
              intro hn
              have := congrArg List.length hn
              rw [List.length_take, List.length_drop, List.length_nil] at this; omega
            simp only [h3, if_neg h4, List.nil_append]
  · have hz : (List.replicate (emptyEnd xs) (0 : Byte)).length = emptyEnd xs := List.length_replicate
    have hpast := carriedBytes_past skip
    cases x with
    | field bs =>
      simp only [packPart, packField]
      rw [if_neg (by simp), if_neg (by omega)]
      have hc : carriedBytes skip (itemCount xs + 1) 0 (xs ++ [.field bs]) =
          carriedBytes skip (itemCount xs) 0 xs ++ (List.replicate (emptyEnd xs) 0 ++ bs) := by
        rw [carriedBytes_field, if_pos ⟨hge, by omega⟩, hpast _ xs hge (Nat.lt_succ_self _), List.append_assoc]
      split <;> rename_i hfit
      · unfold packed; simp only [hcount, Part.items, List.length_singleton, hc, emptyEnd_field]
        refine Or.inr (Or.inl ⟨by omega, by rw [List.length_append]; omega, ?_⟩)
        simp only [Packing.mk.injEq, List.replicate_zero, and_true, true_and]
        simp only [List.length_append]; omega
      · unfold packed; simp only [hcount, Part.items, List.length_singleton]
        have hn : carriedBytes skip (itemCount xs) 0 (xs ++ [.field bs]) =
            carriedBytes skip (itemCount xs) 0 xs := by
          rw [carriedBytes_field, if_neg (by omega), List.append_nil]
        refine Or.inr (Or.inr ⟨itemCount xs, hge, by omega, by rw [hn]; exact hlen, ?_, trivial, hn.symm, by omega⟩)
        rw [hc, List.length_append]; omega
    | list es =>
      cases es with
      | nil =>
        simp only [packPart, packList]
        rw [if_neg (by simp), if_neg (by omega)]
        unfold packed; simp only [hcount, Part.items, List.length_nil, Nat.add_zero, emptyEnd_empty]
        have hn : carriedBytes skip (itemCount xs) 0 (xs ++ [.list []]) =
            carriedBytes skip (itemCount xs) 0 xs := by
          rw [carriedBytes_empty, if_neg (by omega), List.append_nil]
        rw [hn]
        exact Or.inr (Or.inl ⟨hge, hlen, by simp [List.replicate_succ']⟩)
      | cons e es =>
        simp only [packPart, packList]
        rw [if_neg (by simp), if_neg (by simp), if_neg (by simp), List.drop_zero]
        refine packEntries_packed (n := itemCount xs) hge (by simp) (hx _ rfl) rfl (by simp) hlen ?_ ?_
        · rw [carriedBytes_list]; simp
        · intro m hm
          rw [carriedBytes_list, hpast _ xs hge (by omega)]
          have h1 : skip - itemCount xs = 0 := by omega
          have h2 : itemCount xs + m - itemCount xs = m := by omega
          have h3 : (e :: es).take m ≠ [] := by
            intro hn; have := congrArg List.length hn; rw [List.length_take] at this; simp at this; omega
          simp only [h1, h2, List.drop_zero, if_neg h3]
  · have hstay : packPart p x = { p with left := p.left + x.items.length } := by
      cases x <;> simp [packPart, packField, packList, hfull, Part.items]
    have hcut : ∀ c, c ≤ itemCount xs → carriedBytes skip c 0 (xs ++ [x]) = carriedBytes skip c 0 xs := by
      intro c hc
      rw [carriedBytes_append, carriedBytes_behind (b := c) (i := 0 + itemCount xs) (by omega), List.append_nil]
    rw [hstay]
    unfold packed; simp only [hcount]
    refine Or.inr (Or.inr ⟨b, hb, by omega, by rw [hcut b (by omega)]; exact hlen, by rw [hcut _ (by omega)]; exact hover,
      hfull, by rw [hcut b (by omega)]; exact hout, by omega⟩)

/-- The packing of a reply's parts. -/
theorem packed_all (skip : Nat) (parts : List Part) (h : ∀ es, .list es ∈ parts → [] ∉ es) :
    packed skip parts
      (parts.foldl packPart { skip := skip, room := itemRoom, zeros := [], out := [], full := false, left := 0 }) := by
  induction parts using List.reverseRecOn with
  | nil =>
    unfold packed
    by_cases hs : 0 < skip
    · exact Or.inl ⟨hs, rfl⟩
    · have : skip = 0 := by omega
      subst this
      exact Or.inr (Or.inl ⟨Nat.le_refl _, by simp, rfl⟩)
  | append_singleton xs x ih =>
    rw [List.foldl_append]
    exact packed_step (ih fun es he => h es (List.mem_append_left _ he)) x fun es he => h es (by simp [he])

/-- A long reply gives the number of items left out at its end, and behind it the items carried: from the first not skipped, as
many as fit; and at the end of a whole reply the counts of empty lists at its end, where there is room (R179, log 23). -/
theorem packReply_carries (skip : Nat) (parts : List Part) (h : ∀ es, .list es ∈ parts → [] ∉ es) :
    let n := itemCount parts
    ∃ b, min skip n ≤ b ∧ b ≤ n ∧
      let body := carriedBytes skip b 0 parts
      let ends := List.replicate (emptyEnd parts) (0 : Byte)
      body.length ≤ 27 ∧ (b < n → 27 < (carriedBytes skip (b + 1) 0 parts).length) ∧
      packReply skip parts = byteOf (n - b) :: (body ++
        if b = n ∧ skip ≤ n ∧ (body ++ ends).length ≤ 27 then ends else []) := by
  intro n
  have key := packed_all skip parts h
  unfold packReply
  rcases key with ⟨hlt, hp⟩ | ⟨hge, hlen, hp⟩ | ⟨b, hb, hbn, hlen, hover, hfull, hout, hleft⟩
  · refine ⟨n, Nat.min_le_right .., Nat.le_refl _, ?_⟩
    have hc : carriedBytes skip n 0 parts = [] := carriedBytes_before _ (by simpa using hlt)
    rw [hp]
    have : ¬ skip ≤ n := by omega
    simp [hc, this]
  · refine ⟨n, Nat.min_le_right .., Nat.le_refl _, ?_⟩
    rw [hp]
    refine ⟨hlen, fun h => absurd h (Nat.lt_irrefl _), ?_⟩
    simp only [Nat.sub_self, List.length_append, List.length_replicate, hge, n, true_and, Bool.not_false, Bool.true_and,
      decide_eq_true_eq]
    congr 1
    split <;> rename_i h1 <;> split <;> rename_i h2 <;> first | rfl | (exfalso; omega) | simp
  · refine ⟨b, by omega, by omega, hlen, fun _ => hover, ?_⟩
    have hne : ¬ b = n := by omega
    simp only [hfull, hout, hleft, n, Bool.not_true, Bool.false_and, if_neg (show ¬ (false = true) by simp)]
    rw [if_neg (fun h => hne h.1)]
    simp

end Sys2Proof.Machine
end

