-- ==== Sys2Proof/Laws/Rows.lean ====
section
/-! SUPPORT. Command rows: what a row does on an idle port, by what its command does. -/

namespace Sys2Proof.Machine

/-- A command row hands its command to its port. -/
theorem exec_command (i : Instr) (p : PortId) (c : Command) (s : State) (h : i.command = some (p, c)) :
    exec i s = .next (submit p c s) := by
  cases i <;> simp only [Instr.command, Option.some.injEq, Prod.mk.injEq, reduceCtorEq] at h <;>
    (obtain ⟨rfl, rfl⟩ := h; rfl)

/-- A command row on an idle port answers with what its command does. -/
theorem idle_answers {i : Instr} {p : PortId} {c : Command} {s t : State} {code : Byte} {b : ReplyBody} (h : s.idlePort p)
    (hi : i.command = some (p, c)) (hc : BitVec.ofNat 8 (commandCode c) = code) (hp : perform p false c s = (t, b)) :
    exec i s = .next (replied p code b t) := by
  rw [exec_command i p c s hi, submit_idle s p c h, hp, hc]

/-- A command row on an idle port is refused where its command is. -/
theorem idle_refuses {i : Instr} {p : PortId} {c : Command} {s : State} {code : Byte} {r : Reason} (h : s.idlePort p)
    (hi : i.command = some (p, c)) (hc : BitVec.ofNat 8 (commandCode c) = code) (hp : perform p false c s = refuse r s) :
    refusesWith i p code r s := idle_answers h hi hc hp

/-! ### Range checks -/

/-- A zone number is that of a zone. -/
@[simp] theorem zoneArg_val (z : ZoneId) : zoneArg z.val = some z := by simp [zoneArg]
@[simp] theorem trainArg_val (t : TrainId) : trainArg t.val = some t := by simp [trainArg]
@[simp] theorem switchArg_val (n : SwitchId) : switchArg n.val = some n := by simp [switchArg]
@[simp] theorem portArg_val (p : PortId) : portArg p.val = some p := by simp [portArg]
@[simp] theorem routeArg_val (r : RouteId) : routeArg r.val = some r := by simp [routeArg]
@[simp] theorem stepArg_val (k : StepId) : stepArg k.val = some k := by simp [stepArg]
@[simp] theorem readyArg_val (r : ReadyId) : readyArg r.val = some r := by simp [readyArg]

theorem zoneArg_none {n : Nat} (h : 32 ≤ n) : zoneArg n = none := by simp [zoneArg]; omega
theorem trainArg_none {n : Nat} (h : 8 ≤ n) : trainArg n = none := by simp [trainArg]; omega
theorem switchArg_none {n : Nat} (h : 4 ≤ n) : switchArg n = none := by simp [switchArg]; omega
theorem portArg_none {n : Nat} (h : 4 ≤ n) : portArg n = none := by simp [portArg]; omega
theorem routeArg_none {n : Nat} (h : 8 ≤ n) : routeArg n = none := by simp [routeArg]; omega
theorem stepArg_none {n : Nat} (h : 16 ≤ n) : stepArg n = none := by simp [stepArg]; omega
theorem readyArg_none {n : Nat} (h : 4 ≤ n) : readyArg n = none := by simp [readyArg]; omega

/-- A checked number is that of the object it names. -/
theorem zoneArg_some {n : Nat} {z : ZoneId} (h : zoneArg n = some z) : n = z.val := by
  unfold zoneArg at h; split at h
  · cases h; rfl
  · cases h
theorem trainArg_some {n : Nat} {t : TrainId} (h : trainArg n = some t) : n = t.val := by
  unfold trainArg at h; split at h
  · cases h; rfl
  · cases h
theorem switchArg_some {n : Nat} {k : SwitchId} (h : switchArg n = some k) : n = k.val := by
  unfold switchArg at h; split at h
  · cases h; rfl
  · cases h
theorem portArg_some {n : Nat} {p : PortId} (h : portArg n = some p) : n = p.val := by
  unfold portArg at h; split at h
  · cases h; rfl
  · cases h
theorem routeArg_some {n : Nat} {r : RouteId} (h : routeArg n = some r) : n = r.val := by
  unfold routeArg at h; split at h
  · cases h; rfl
  · cases h
theorem stepArg_some {n : Nat} {k : StepId} (h : stepArg n = some k) : n = k.val := by
  unfold stepArg at h; split at h
  · cases h; rfl
  · cases h

/-- A number a command gives lies in its range. -/
theorem inRange_iff (a b n : Nat) : inRange a b n = true ↔ a ≤ n ∧ n ≤ b := by simp [inRange]

/-- A stoppable zone of a layout, by its record. -/
theorem isStop_iff (l : Layout) (z : ZoneId) : l.isStop z = true ↔ l.stoppableZone z := by
  unfold Layout.isStop Layout.stoppableZone
  cases h : l.zones[z] with
  | none => simp
  | some r => cases hk : r.kind <;> simp [stoppable, hk]

/-- A defined zone of a layout. -/
theorem defines_iff (l : Layout) (z : ZoneId) : l.defines z = true ↔ l.zones[z] ≠ none := by
  unfold Layout.defines
  cases l.zones[z] <;> simp

/-- A zone named by a number is stoppable. -/
theorem stopZoneArg_some (l : Layout) (z : ZoneId) (h : l.stoppableZone z) : stopZoneArg l z.val = some z := by
  unfold stopZoneArg
  rw [zoneArg_val]
  simp [(isStop_iff l z).mpr h]

/-- A number names no stoppable zone. -/
theorem stopZoneArg_none (l : Layout) (n : Nat) (h : ∀ z : ZoneId, n = z.val → ¬ l.stoppableZone z) :
    stopZoneArg l n = none := by
  unfold stopZoneArg
  cases hz : zoneArg n with
  | none => rfl
  | some z =>
    have := h z (zoneArg_some hz)
    simp [← isStop_iff] at this
    simp [this]

/-- A route held by a train. -/
theorem routeHeld_iff (w : Track) (r : RouteId) : routeHeld w r = true ↔ w.routeInUse r := by
  unfold routeHeld Track.routeInUse
  have : holders w r ≠ [] ↔ ∃ (t : TrainId) (d : Ride), (w.trains[t]).ride = some d ∧ d.route = r := by
    unfold holders trainIds
    rw [ne_eq, List.filter_eq_nil_iff]
    simp only [List.mem_finRange, decide_eq_true_eq, forall_const, not_forall, not_not, Option.map_eq_some_iff]
  rw [← this]
  cases holders w r <;> simp

/-! ### Examinations that commands share -/

theorem loadRefusal_role (s : State) {p : PortId} (h : p ≠ 0) : loadRefusal p s = some .role := by simp [loadRefusal, h]
theorem loadRefusal_locked (s : State) {p : PortId} (h : p = 0) (hc : s.layout.committed = true) :
    loadRefusal p s = some .locked := by simp [loadRefusal, h, hc]
theorem loadRefusal_none (s : State) {p : PortId} (h : s.loadable p) : loadRefusal p s = none := by
  obtain ⟨h, hc⟩ := h; simp [loadRefusal, h, hc]

theorem routeRefusal_role (s : State) {p : PortId} (h : p ≠ 0) : routeRefusal p s = some .role := by simp [routeRefusal, h]
theorem routeRefusal_mode (s : State) {p : PortId} (h : p = 0) (hc : s.layout.committed = false) :
    routeRefusal p s = some .mode := by simp [routeRefusal, h, hc]
theorem routeRefusal_none (s : State) {p : PortId} (h : s.orderable p) : routeRefusal p s = none := by
  obtain ⟨h, hc⟩ := h; simp [routeRefusal, h, hc]

theorem orderRefusal_role (s : State) {p : PortId} (h : p ≠ 0) : orderRefusal p s = some .role := by simp [orderRefusal, h]
theorem orderRefusal_mode (s : State) {p : PortId} (h : p = 0) (hc : s.layout.committed = false) :
    orderRefusal p s = some .mode := by simp [orderRefusal, h, hc]
theorem orderRefusal_none (s : State) {p : PortId} (h : s.orderable p) : orderRefusal p s = none := by
  obtain ⟨h, hc⟩ := h; simp [orderRefusal, h, hc]

end Sys2Proof.Machine
end

