-- ==== Sys2Proof/Laws/Served.lean ====
section
/-! SUPPORT. Which claim a move serves (R101, R102): the claim of its number that awaits its switch; and what becomes of the
moves that served claims that leave. -/

namespace Sys2Proof.Machine

theorem Claim.servedBy_iff (c : Claim) (n : SwitchId) (k : Byte) :
    c.servedBy n k = true ↔ c.seq = k ∧ ∃ ns, c.state = .setting ns ∧ n ∈ ns := by
  unfold Claim.servedBy Claim.awaits
  cases c.state <;> simp

/-- The claim a move serves is the oldest of the list that has its number and awaits its switch. -/
theorem servedClaim_iff (w : Track) (n : SwitchId) (v : Served) (c : Claim) :
    servedClaim w n v = some c ↔ ∃ k, v = .claim k ∧ c.servedBy n k = true ∧
      ∃ as bs, w.claims = as ++ c :: bs ∧ ∀ a ∈ as, a.servedBy n k = false := by
  cases v with
  | claim k => simp [servedClaim, List.find?_eq_some_iff_append]
  | port p => simp [servedClaim]
  | none => simp [servedClaim]

/-- A move serves no claim where none of the list has its number and awaits its switch. -/
theorem servedClaim_none (w : Track) (n : SwitchId) (k : Byte) :
    servedClaim w n (.claim k) = none ↔ ∀ c ∈ w.claims, c.servedBy n k = false := by
  simp [servedClaim]

/-- A move that served one of the claims goes on and serves none. -/
theorem unserve_served {cs : List Claim} {w : Work} {n : SwitchId} {r : Switch} {q : Position} {l : Nat} {k : Byte}
    (hr : w.switches[n] = some r) (hm : r.state = .moving q l (.claim k)) (h : ∃ c ∈ cs, c.servedBy n k = true) :
    (unserve cs w).switches[n] = some { r with state := .moving q l .none } := by
  rw [unserve_switch, hr, Option.map_some]
  unfold unserveSwitch
  rw [hm]
  exact congrArg some (if_pos (List.any_eq_true.2 h))

/-- A switch with no move that served one of the claims is as it was. -/
theorem unserve_other {cs : List Claim} {w : Work} {n : SwitchId}
    (h : ∀ r q l k, w.switches[n] = some r → r.state = .moving q l (.claim k) → ∀ c ∈ cs, c.servedBy n k = false) :
    (unserve cs w).switches[n] = w.switches[n] := by
  rw [unserve_switch]
  cases hr : w.switches[n] with
  | none => rfl
  | some r =>
    rw [Option.map_some]
    unfold unserveSwitch
    split
    · next q l k hm =>
      rw [if_neg]
      rw [List.any_eq_true]
      rintro ⟨c, hc, hs⟩
      rw [h r q l k hr hm c hc] at hs
      cases hs
    · rfl

/-- An arrival whose move serves no claim changes nothing of the claims. -/
theorem arriveFor_none {n : SwitchId} {v : Served} {w : Work} (h : servedClaim w.toTrack n v = none) : arriveFor n v w = w := by
  unfold arriveFor; rw [h]

/-- An arrival for the last switch awaited completes the claim. -/
theorem arriveFor_last {n : SwitchId} {v : Served} {w : Work} {c : Claim} {ns : List SwitchId}
    (h : servedClaim w.toTrack n v = some c) (hs : c.state = .setting ns) (hn : ∀ m ∈ ns, m = n) :
    arriveFor n v w = dropClaims (fun d => d.same c) w := by
  have : (ns.filter fun m => decide (m ≠ n)) = [] := by
    rw [List.filter_eq_nil_iff]; intro m hm; simp [hn m hm]
  unfold arriveFor; simp only [h, hs, this]

/-- An arrival for one switch of several awaited leaves the others awaited. -/
theorem arriveFor_more {n : SwitchId} {v : Served} {w : Work} {c : Claim} {ns : List SwitchId}
    (h : servedClaim w.toTrack n v = some c) (hs : c.state = .setting ns) (hn : ∃ m ∈ ns, m ≠ n) :
    arriveFor n v w = mapClaims (fun d => if d.same c then
      { d with state := .setting (ns.filter fun m => decide (m ≠ n)) } else d) w := by
  unfold arriveFor; simp only [h, hs]
  split
  · next he =>
    obtain ⟨m, hm, hne⟩ := hn
    exact absurd (List.mem_filter.2 ⟨hm, by simpa using hne⟩) (he ▸ List.not_mem_nil)
  · next x xs he => rw [he]

end Sys2Proof.Machine
end

