-- ==== Sys2Proof/Tests/Slice0.lean ====
section
/-! SUPPORT. Tests on one small layout: the smoke test of the well-formedness check, the CRC and the frames, decoded command
bytes, and for every statement states and operands that meet its hypotheses, clause by clause. -/

set_option Elab.async false

namespace Sys2Proof.Tests

open Sys2Proof.Machine

/-! ### Reading a step -/

/-- The state after one command. -/
def after (i : Instr) (s : State) : State :=
  match exec i s with
  | .next t => t
  | .fault _ => s
  | .refused _ => s

/-- The command answers a next state. -/
def runs (i : Instr) (s : State) : Bool :=
  match exec i s with
  | .next _ => true
  | .fault _ => false
  | .refused _ => false

/-- The newest reply of a port after one command. -/
def answerOf (i : Instr) (p : PortId) (s : State) : Option ReplyBody :=
  ((after i s).ports[p]).replies.getLast?.map (·.body)

/-- The names of the notices a port holds. -/
def noticesOf (p : PortId) (s : State) : List NoticeName := ((s.ports[p]).notices).map (·.note.name)

/-- A number of answers that are all refusals with these reasons. -/
def refusals (xs : List (Instr × PortId × Reason)) (s : State) : Bool :=
  xs.all fun x => decide (answerOf x.1 x.2.1 s = some (.refused x.2.2))

/-- The command is DONE from the supervisor's port. -/
def isDone (i : Instr) (s : State) : Bool := decide (answerOf i 0 s = some (.done []))

/-! ### A small ride: a station Z0, a chain Z1, a brake Z2, and two storage zones Z3 and Z4 between two switches -/

/-- A zone record. -/
def zoneOf (k : ZoneKind) (x : Exit) (r : Option ReadyId) (o : Option PortId) : ZoneLayout :=
  { kind := k, exit := x, entryHigh := true, stopHigh := if k = .run then none else some true, settle := 5, gap := 10
    limit := 20, travel := 30, window := if k = .run then none else some 40, ready := r, owner := o
    wait := if k = .station then some 2 else none }

/-- The layout. -/
def ring : Layout :=
  { Layout.reset with
    zones := ((((Layout.reset.zones.set 0 (some (zoneOf .station (.zone 1) (some 0) (some 1)))).set 1
      (some (zoneOf .run (.zone 2) none none))).set 2 (some (zoneOf .brake (.switch 0) none none))).set 3
      (some (zoneOf .storage (.switch 1) none (some 2)))).set 4 (some (zoneOf .storage (.switch 1) none (some 2)))
    switches := (Layout.reset.switches.set 0
      (some { kind := .diverge, root := 2, straight := 3, diverge := 4, moveLimit := 10 })).set 1
      (some { kind := .merge, root := 0, straight := 3, diverge := 4, moveLimit := 10 })
    roles := #v[.supervisor, .station, .transfer, .observer] }

/-- A line at rest at a level. -/
def steady (b : Bool) : Line := { pin := b, established := true, level := b, last := b, count := 0, due := false }

/-- Every sensor inactive, both switches lying STRAIGHT, no gate ready, no emergency stop. -/
def quiet : Inputs :=
  { entry := Vector.replicate 32 (steady false), stop := Vector.replicate 32 (steady false)
    feedback := Vector.replicate 32 (steady false), straight := Vector.replicate 4 (steady true)
    diverge := Vector.replicate 4 (steady false), ready := Vector.replicate 4 (steady false)
    estop := Vector.replicate 2 (steady true) }

/-- The layout loaded, and not committed. -/
def loaded : State :=
  { State.reset with layout := ring, inputs := quiet, track := { Track.reset with mode := .unconfigured } }

/-- The ports with no notice waiting. -/
def heard (s : State) : State := { s with ports := s.ports.map fun r => { r with notices := [] } }

/-- The layout in service. -/
def standby : State := heard (commitState loaded)

/-- The track with another mode. -/
def inMode (m : Mode) (s : State) : State := { s with track := { s.track with mode := m } }

/-- A zone CLEAR with its brake confirmed. -/
def cleared (r : Zone) : Zone :=
  { r with state := .clear, brake := r.brake.map fun b => { b with supervision := .confirmed } }

/-- The station, the brake, and the storage zone Z3. -/
def tour : Route :=
  { state := .sealed 3 false
    slots := ((Route.cleared.slots.set 0 (some { zone := 0, action := .dispatch, opener := none })).set 1
      (some { zone := 2, action := .hold 10, opener := none })).set 2 (some { zone := 3, action := .park, opener := none }) }

/-- The ride open, with no train on it. -/
def operating : State :=
  { standby with
    routes := standby.routes.set 0 tour
    track := { standby.track with mode := .operating, zones := standby.track.zones.map (·.map cleared) } }

/-- A train in one zone at a step of the tour. -/
def rider (x : TrainState) (k : StepId) (z : ZoneId) : Train :=
  { Train.gone with
    state := x, footprint := [z]
    ride := some { route := 0, cursor := k, frames := [], stalled := false, atEnd := false } }

/-- A zone's state. -/
def withZoneState (z : ZoneId) (x : ZoneState) (s : State) : State := { s with track := (s.work.setZone z x).toTrack }

/-- A train record on the track. -/
def withTrain (t : TrainId) (r : Train) (s : State) : State := { s with track := (s.work.setTrain t r).toTrack }

/-- A train at rest, in its zone, with the stop sensor active. -/
def resting (t : TrainId) (x : TrainState) (k : StepId) (z : ZoneId) (s : State) : State :=
  (withTrain t (rider x k z) (withZoneState z (.occupied t) s)).setInput (.stop z) true

/-- T0 STANDING at the station's DISPATCH step, READY active. -/
def atStation : State := (resting 0 .standing 0 0 operating).setInput (.ready 0) true

/-- The same train with its leg granted. -/
def granted : State := after (.dispatch 1 0) atStation

/-- A train in this state whose authority is the leg to the brake, in front of the station. -/
def underWay (x : TrainState) : State :=
  withTrain 0 { (granted.track.trains[(0 : TrainId)]) with state := x, departure := none, travel := some 3000 } granted

/-- The dispatch waiting, for the brake zone is occupied. -/
def waiting : State := heard (after (.dispatch 1 0) (resting 1 .stored 1 2 atStation))

/-- T0 STANDING at the PARK step in Z3. -/
def parked : State := resting 0 .standing 2 3 operating

/-- The section of CP2: Z3, a train in it, handed over. -/
def handed : State := after (.requestSection 2 [3] none) (resting 1 .stored 1 3 operating)

/-- A zone of the section of CP0 that holds both leaves and the root of SW0. -/
def yard : State := after (.requestSection 0 [2, 3, 4] none) operating

/-- SW0 on its way to DIVERGE. -/
def throwing : State := after (.moveSwitch 0 0 2) yard

/-! ### Well-formedness: an ill-formed term for each check, refused -/

/-- Fields of LOAD_ZONE at the ends of their ranges. -/
def stationFields : ZoneFields :=
  { kind := .station, exit := .switch 3, entryHigh := true, stopHigh := false, settle := 15, gap := 63, limit := 255
    travel := 0, window := 1, ready := some 3, owner := some 1, wait := 255 }

/-- Fields of LOAD_STEP with the action NONE. -/
def noStep : StepFields := { zone := 0, action := none, dwell := 0, opener := none }

theorem test_wf_admits :
    (Instr.loadZone 0 31 (some stationFields)).wf = true ∧ (Instr.readFrame 3 1).wf = true ∧
      (Instr.requestSection 2 [1, 2] (some 254)).wf = true ∧ (Instr.entrySensorChange 0 true).wf = true := by decide

theorem test_wf_refuses_wide_numbers :
    [Command.readZone 256, .readTrain 0 256, .readTrain 256 0, .readSwitch 256, .readClaim 256 0, .readClaim 0 256,
      .readStep 256 0, .readStep 0 256, .setMask 256, .loadZone 256 none, .loadSwitch 256 none, .loadPort 256 1,
      .loadPort 1 256, .loadGlobals 256 1 1, .loadGlobals 0 256 1, .loadGlobals 0 1 256, .loadStep 256 0 noStep,
      .loadStep 0 256 noStep, .sealRoute 256 1 true, .sealRoute 0 256 true, .clearRoute 256, .setMode 256, .setLease 256 1 1,
      .setLease 1 256 1, .setLease 1 1 256, .forceLapse 256].all (fun c => !c.wf) = true := by decide

theorem test_wf_refuses_wide_orders :
    [Command.placeTrain 256 0 0 .none, .placeTrain 0 256 0 .none, .placeTrain 0 0 256 .none, .placeTrain 0 0 0 (.at 256 0),
      .placeTrain 0 0 0 (.at 0 256), .assignRoute 256 0 0, .assignRoute 0 256 0, .assignRoute 0 0 256, .retireTrain 256 1,
      .retireTrain 0 256, .assertZone 256 1, .assertZone 0 256, .proceed 256, .breakLoop 256, .resetSwitch 256,
      .dispatch 256, .cancelDispatch 256, .move 256, .requestSection [256] none, .requestSection [0] (some 255),
      .requestSection (List.replicate 29 0) none, .returnSection [(256, .empty)], .returnSection [(0, .train 256)],
      .returnSection (List.replicate 10 (0, .empty)), .setHold 256 1, .setHold 0 256, .moveSwitch 256 1,
      .moveSwitch 0 256].all (fun c => !c.wf) = true := by decide

theorem test_wf_refuses_wide_fields :
    [{ stationFields with settle := 256 }, { stationFields with gap := 256 }, { stationFields with limit := 256 },
      { stationFields with travel := 256 }, { stationFields with window := 256 }, { stationFields with ready := some 255 },
      { stationFields with owner := some 255 }, { stationFields with wait := 256 }].all (fun f => !f.wf) = true ∧
    [(256, 0, 0, 1), (0, 256, 0, 1), (0, 0, 256, 1), (0, 0, 0, 256)].all (fun q =>
      !(SwitchFields.wf { kind := .merge, root := q.1, straight := q.2.1, diverge := q.2.2.1, moveLimit := q.2.2.2 })) = true ∧
    [{ noStep with zone := 256 }, { noStep with dwell := 256 }, { noStep with opener := some (.counted 256, 1) },
      { noStep with opener := some (.forever, 256) }].all (fun f => !f.wf) = true ∧
    (Instr.readFrame 0 0).wf = false ∧ (Instr.repeatFrame 0 0).wf = false := by decide

/-! ### The check byte, frames, and command bytes -/

/-- The CRC-8 of R168 (polynomial 0x2F, initial value 0xFF, no inversion) over the digits 1 to 9. -/
theorem test_crc_check_value : crc8 [0x31, 0x32, 0x33, 0x34, 0x35, 0x36, 0x37, 0x38, 0x39] = 0x20 := by decide +kernel

/-- The bytes of a command frame. -/
def frameOf (code : Byte) (params : List Byte) : List Byte :=
  let head := 0xA5 :: BitVec.ofNat 8 params.length :: code :: params
  head ++ [crc8 head]

theorem test_frame_check :
    checkFrame (frameOf 0x20 [2]) = some { code := 0x20, params := [2] } ∧
    checkFrame (frameOf 0x38 (List.replicate 30 7)) = some { code := 0x38, params := List.replicate 30 7 } ∧
    checkFrame (frameOf 0x38 (List.replicate 31 7)) = none ∧ checkFrame (frameOf 0x20 [2] ++ [0]) = none ∧
    checkFrame ((frameOf 0x20 [2]).dropLast) = none ∧ checkFrame [] = none ∧
    checkFrame ((frameOf 0x20 [2]).set 0 0x5A) = none ∧ checkFrame ((frameOf 0x20 [2]).set 3 3) = none := by decide +kernel

theorem test_command_codes_read :
    decodeCommand 0x10 [5, 1, 0x83, 3, 1, 2, 3, 4, 5, 0xFF, 1, 6] = some (.loadZone 5 (some
      { kind := .station, exit := .switch 3, entryHigh := true, stopHigh := true, settle := 1, gap := 2, limit := 3
        travel := 4, window := 5, ready := none, owner := some 1, wait := 6 })) ∧
    decodeCommand 0x10 [5, 0, 9, 9, 9, 9, 9, 9, 9, 9, 9, 9] = some (.loadZone 5 none) ∧
    decodeCommand 0x10 [5, 1, 0x84, 3, 1, 2, 3, 4, 5, 0xFF, 1, 6] = none ∧
    decodeCommand 0x10 [5, 1, 0x20, 3, 1, 2, 3, 4, 5, 0xFF, 1, 6] = none ∧
    decodeCommand 0x10 [5, 7, 0, 3, 1, 2, 3, 4, 5, 0xFF, 1, 6] = none ∧
    decodeCommand 0x10 [5, 1, 0, 4, 1, 2, 3, 4, 5, 0xFF, 1, 6] = none ∧ decodeCommand 0x10 [5] = none ∧
    decodeCommand 0x11 [1, 2, 3, 4, 5, 6] =
      some (.loadSwitch 1 (some { kind := .merge, root := 3, straight := 4, diverge := 5, moveLimit := 6 })) ∧
    decodeCommand 0x18 [1, 2, 3, 2, 4, 1, 5, 6] =
      some (.loadStep 1 2 { zone := 3, action := some .hold, dwell := 4, opener := some (.counted 5, 6) }) ∧
    decodeCommand 0x18 [1, 2, 3, 0, 4, 2, 0, 6] =
      some (.loadStep 1 2 { zone := 3, action := none, dwell := 4, opener := some (.forever, 6) }) ∧
    decodeCommand 0x18 [1, 2, 3, 2, 4, 0, 1, 0] = none ∧ decodeCommand 0x18 [1, 2, 3, 2, 4, 0, 0, 1] = none ∧
    decodeCommand 0x18 [1, 2, 3, 2, 4, 2, 1, 6] = none ∧
    decodeCommand 0x08 [0x80] = none ∧ decodeCommand 0x09 [] = none ∧ decodeCommand 0x01 [0] = none ∧
    decodeCommand 0x38 [2, 3, 4, 0xFF] = some (.requestSection [3, 4] none) ∧
    decodeCommand 0x3A [1, 3, 2, 7] = some (.returnSection [(3, .train 7)]) := by decide +kernel

theorem test_no_table_row_gives_bits :
    decodeTableWord 8 0 = none ∧ (State.reset.withFetchWord 8 0) = State.reset := by decide +kernel

/-! ### Steps, starts and the tick -/

theorem test_witness_idlePorts :
    (∀ p, State.reset.idlePort p) ∧ (∀ p, loaded.idlePort p) ∧ (∀ p, operating.idlePort p) ∧ (∀ p, atStation.idlePort p) ∧
      (∀ p : PortId, p ≠ 0 → granted.ports[p].commands = []) := by
  unfold State.idlePort; decide +kernel

/-- One event due, and two. -/
def sampling : State := { standby with sampleDue := true }

def twoDue : State := { sampling with track := { sampling.track with estopClear := some 0 } }

/-- A timer of every kind at 0, and the level of an ESTOP line and of an entry sensor not yet delivered. -/
def allDue : State :=
  let w := standby.track
  { sampling with
    inputs := { quiet with estop := quiet.estop.set 1 { steady false with due := true }
                           entry := quiet.entry.set 1 { steady true with due := true } }
    ports := standby.ports.set 2 { standby.ports[2] with leaseRemaining := some 0 }
    track := { w with
      estopClear := some 0
      zones := w.zones.set 4 (some { state := .clearing 0 0, history := []
                                     brake := some { hold := .held, supervision := .awaiting 0 } })
      trackers := (w.trackers.set 1 (some (.passing true 0 (some 0)))).set 2 (some (.stuck (some 0)))
      trains := w.trains.set 3 { Train.gone with dwell := some 0, departure := some 0, travel := some 0 }
      switches := w.switches.set 0 ((w.switches[0]).map fun r => { r with state := .moving .diverge 0 .none })
      claims := [{ seq := 0, body := .sectionOf { port := 2, zones := [3], switches := [] }, state := .waiting, wait := some 0
                   bypass := 0 }] } }

theorem test_witness_StepOnEmptyQueue :
    (State.reset.pending = [] ∧ dueEvents State.reset = []) ∧ dueEvents sampling = [.occupancySample] ∧
      (dueEvents twoDue).length = 2 ∧ twoDue.pending = [] ∧ runs .occupancySample sampling = true := by decide +kernel

theorem test_witness_StepOnEmptyQueue_due :
    dueEvents allDue = [.entrySensorChange 1 true, .estopLineChange 1 true, .settleExpiry 4, .holdConfirmExpiry 4,
      .passageGapExpiry 1, .passageGapExpiry 2, .passageLimitExpiry 1, .dwellExpiry 3, .departureWindowExpiry 3,
      .travelLimitExpiry 3, .moveLimitExpiry 0, .claimWaitExpiry (.port 2), .leaseExpiry 2, .estopClearExpiry,
      .occupancySample] := by decide +kernel

/-- Every timer of the track runs. -/
def timed : State :=
  { underWay .running with
    time := 249
    track := { (underWay .running).track with
      estopClear := some 500, zones := (underWay .running).track.zones.set 4
        (some { state := .clearing 0 500, brake := some { hold := .held, supervision := .awaiting 200 }, history := [] })
      trackers := (underWay .running).track.trackers.set 1 (some (.passing false 2000 (some 200))) } }

theorem test_witness_MillisecondTick :
    (timed.pending = [] ∧ dueEvents timed = []) ∧ timed.tick.sampleDue = true ∧ timed.tick.track.estopClear = some 499 ∧
      timed.tick.track.zoneState 4 = some (.clearing 0 499) ∧
      timed.tick.track.trackers[(1 : ZoneId)] = some (.passing false 1999 (some 199)) ∧
      (timed.tick.track.trains[(0 : TrainId)]).travel = some 2999 := by decide +kernel

/-- One sample of ESTOP line 0. -/
def sampled (x : Line) : Line := sampleLine ring (.estop 0) x

theorem test_witness_SamplerAndInputLevels :
    sampled { steady true with count := 2 } = steady true ∧
    sampled { steady true with pin := false, count := 1 } = { steady true with pin := false, count := 2 } ∧
    sampled { steady true with pin := false, count := 2 } = { steady true with pin := false, level := false, due := true } ∧
    sampleLine ring (.entry 0) { steady true with pin := false, count := 2 } =
      { steady true with pin := false, level := false } ∧
    sampled Line.reset = { Line.reset with count := 1 } ∧
    sampled { Line.reset with count := 1 } = { Line.reset with count := 2 } ∧
    sampled { Line.reset with pin := true, last := true, count := 2 } =
      { Line.reset with pin := true, established := true, level := true, last := true, due := true } ∧
    sampled { Line.reset with count := 2 } = { Line.reset with established := true } := by decide +kernel

theorem test_witness_SamplerAndInputLevels_seen :
    (inputActive ring Inputs.reset (.entry 0), inputActive ring Inputs.reset (.feedback 0)) = (true, false) ∧
    (let x : Inputs := { quiet with estop := quiet.estop.set 0 { steady false with due := true } }
     (inputActive ring x (.estop 0), inputSeen ring x (.estop 0), inputSeen ring x (.estop 1)) = (true, false, false)) ∧
    (operating.layout.zones[(0 : ZoneId)]).bind (·.stopHigh) = some true ∧ operating.layout.committed = true ∧
    (ring.committed = false ∧ ring.zones[(0 : ZoneId)] ≠ none) ∧ operating.layout.zones[(31 : ZoneId)] = none := by
  decide +kernel

theorem test_witness_ColdStart :
    after .coldStart operating = ({ State.reset with inputs := quiet.cleared } : State) ∧
      after .coldStart State.reset = State.reset := by
  decide +kernel

/-- A zone seen free four times, in Z3; every other has no sample. -/
def seenFree : State :=
  let r : Zone := { state := .clear, brake := some { hold := .held, supervision := .confirmed }, history := [false, false, false] }
  { operating with track := { operating.track with zones := operating.track.zones.set 3 (some r) } }

theorem test_witness_WarmStartAndRestart :
    (after .warmStart State.reset).track.mode = .estopped ∧
    (after .warmStart (inMode .estopped standby)).track.estopClear = some 500 ∧
    (after .warmStart operating).track.mode = .halted ∧ (after .warmStart loaded).track.mode = .unconfigured ∧
    noticesOf 3 (after .warmStart operating) = [.mode] ∧
    ((after .warmStart granted).track.trains[(0 : TrainId)]).state = .lost ∧
    (after .warmStart seenFree).track.zoneState 3 = some .clear ∧ (after .warmStart seenFree).track.zoneState 4 = some .unknown ∧
    (after .warmStart seenFree).track.zones[(9 : ZoneId)] = none ∧
    answerOf (.restart 1) 1 operating = some (.refused .role) ∧ isDone (.restart 0) operating = true := by decide +kernel

/-- RESTART in a command frame. -/
def restartFrame : List Byte := [0xA5, 0, 0x21, crc8 [0xA5, 0, 0x21]]

theorem test_restart_keeps_the_frame_returned :
    (after (.commandFrame 0 restartFrame) operating).track.mode = .halted ∧
    (after (.commandFrame 0 restartFrame) operating).ports[(0 : PortId)].dataOut = [0x40, 0, 0, 0] := by decide +kernel

/-! ### Ports, frames and notices -/

/-- A port with so many replies and commands waiting. -/
def busyPort (p : PortId) (replies commands : Nat) (s : State) : State :=
  s.modifyPort p fun r =>
    { r with replies := List.replicate replies { code := 1, body := .accepted }
             commands := List.replicate commands { code := 1, command := some .ping, preLapse := false } }

theorem test_witness_CommandRowsAndHead_rows :
    (Instr.ping 2).command = some (2, .ping) ∧ ((after (.ping 2) (busyPort 2 3 0 loaded)).ports[(2 : PortId)]).replies.length = 4 ∧
    after (.ping 2) (busyPort 2 4 4 loaded) = busyPort 2 4 4 loaded ∧
    ((after (.ping 2) (busyPort 2 4 3 loaded)).ports[(2 : PortId)]).commands.length = 4 := by decide +kernel

theorem test_witness_CommandRowsAndHead_head :
    runHead 1 loaded = loaded ∧ runHead 1 (busyPort 1 4 1 loaded) = busyPort 1 4 1 loaded ∧
    ((runHead 1 (busyPort 1 3 1 loaded)).ports[(1 : PortId)]).replies.length = 4 ∧
    (((runHead 1 ((busyPort 1 3 0 loaded).modifyPort 1 fun r =>
      { r with commands := [{ code := 9, command := none, preLapse := false }] })).ports[(1 : PortId)]).replies.getLast?.map
        (·.body)) = some (.refused .argument) ∧
    (perform 1 true (.dispatch 0) atStation).2 = .refused .state ∧ (perform 1 true .ping atStation).1 = atStation := by
  decide +kernel

theorem test_witness_CommandFrames :
    (after (.commandFrame 0 (frameOf 1 [])) (busyPort 0 4 4 loaded)).ports[(0 : PortId)].commands.length = 4 ∧
    (after (.commandFrame 0 [0xA5, 0]) loaded).ports[(0 : PortId)].rejected = true ∧
    (after (.commandFrame 0 (frameOf 1 [])) loaded).ports[(0 : PortId)].replies.length = 1 ∧
    noticesOf 0 (after (.commandFrame 1 (frameOf 1 [])) (loaded.modifyPort 1 fun r => { r with lapsed := true })) =
      [.leaseResumed] ∧
    (frameOf 1 []).head? ≠ some 0x3C ∧ (frameOf 1 []).head? ≠ some 0x3D := by decide +kernel

theorem test_witness_ReadFrames :
    (after (.readFrame 0 35) (busyPort 0 4 1 loaded)).ports[(0 : PortId)].replies.length = 4 ∧
    (after (.readFrame 0 35) (commitState loaded)).ports[(0 : PortId)].notices = [] ∧
    (after (.readFrame 0 35) loaded).ports[(0 : PortId)].lastReturned = some .empty ∧
    (after (.readFrame 0 34) loaded).ports[(0 : PortId)].rejected = true ∧
    (after (.repeatFrame 0 35) loaded).ports[(0 : PortId)].dataOut.length = 35 ∧
    (after (.repeatFrame 0 34) loaded).ports[(0 : PortId)].rejected = true ∧
    after (.commandFrame 0 (0x3C :: List.replicate 34 0)) loaded = after (.readFrame 0 35) loaded ∧
    after (.commandFrame 0 (0x3D :: List.replicate 34 0)) loaded = after (.repeatFrame 0 35) loaded := by decide +kernel

theorem test_witness_StatusByteAndAttention :
    State.reset.statusOf 0 = 0x80 ∧ (busyPort 0 1 4 operating).statusOf 0 = 0x54 ∧
    ((commitState loaded).modifyPort 0 fun r => { r with rejected := true, lapseSeen := true }).statusOf 0 = 0x2B ∧
    [State.reset, busyPort 0 1 0 operating, commitState loaded].map (fun s => (s.ports[(0 : PortId)]).attention) =
      [false, true, true] := by decide +kernel

/-- The notice of a zone's owner. -/
def arrivedNote : Post :=
  { note := { name := .arrived, subject := .train 0, detail1 := 0, detail2 := 0xFF }, named := [0] }

theorem test_witness_NoticeQueueing :
    noticesOf 0 (standby.deliver [arrivedNote]) = [.arrived] ∧ noticesOf 1 (standby.deliver [arrivedNote]) = [] ∧
    ((standby.modifyPort 0 fun r => { r with notices := List.replicate 8 { note := arrivedNote.note, time := 0 } }).deliver
      [arrivedNote]).ports[(0 : PortId)].overflow = true := by decide +kernel

/-! ### Reads, masks and leases -/

theorem test_ping : answerOf (.ping 1) 1 { standby with time := 258 } = some (.done [0, 0, 1, 2, 1, 2]) := by decide +kernel

theorem test_witness_PortCommands_status :
    statusData standby 2 = [2, 3, 1, 1, 1, 1, 0, 0, 0, 0x20, 0, 0, 0, 0, 1, 0xFF, 0x20] ∧
    runs (.readStatus 3) standby = true ∧ refusals [(.setMask 3 128, 3, .argument)] standby = true ∧
    (after (.setMask 3 127) standby).ports[(3 : PortId)].mask = 0x7F := by decide +kernel

theorem test_witness_ReadRecords :
    refusals [(.readZone 3 0, 3, .mode), (.readSwitch 3 0, 3, .mode)] loaded = true ∧
    refusals [(.readZone 3 32, 3, .argument), (.readZone 3 31, 3, .argument), (.readSwitch 3 4, 3, .argument),
      (.readSwitch 3 3, 3, .argument), (.readTrain 3 8 0, 3, .argument)] standby = true ∧
    (answerOf (.readZone 3 4) 3 standby).isSome = true ∧ (answerOf (.readSwitch 3 1) 3 standby).isSome = true ∧
    answerOf (.readClaim 3 0 0) 3 standby = some (.done [0, 0, 0]) ∧
    (standby.layout.zones[(4 : ZoneId)]).isSome = true ∧ (standby.track.zones[(4 : ZoneId)]).isSome = true ∧
    (runs (.readTrain 3 7 0) standby && runs (.readClaim 3 0 0) waiting) = true ∧ waiting.track.claims.length = 1 := by
  decide +kernel

theorem test_witness_ReadRecords_step :
    refusals [(.readStep 3 8 0, 3, .argument), (.readStep 3 0 16, 3, .argument)] standby = true ∧
    runs (.readStep 3 7 15) standby = true := by decide +kernel

/-- A zone RESERVED, one RELEASED, and one in a section; a switch that moves for a section. -/
theorem test_witness_ReadRecords_zones :
    answerOf (.readZone 3 1) 3 granted =
      some (.done [6, 2, 0, 0xFF, 0xFF, 0xFF, 0xFF, 0xFF, 0xFF, 0, 0, 0xFF, 0xFF]) ∧
    answerOf (.readZone 3 0) 3 granted =
      some (.done [1, 3, 0, 0xFF, 0xFF, 0xFF, 2, 2, 0, 0, 200, 0, 0, 1, 0]) ∧
    answerOf (.readZone 3 3) 3 handed = some (.done [5, 7, 0xFF, 0xFF, 0xFF, 2, 1, 1, 0xFF, 0, 0, 1, 0]) ∧
    answerOf (.readSwitch 3 0) 3 throwing =
      some (.done [1, 2, 3, 4, 3, 2, 0, 0, 3, 232, 2, 0, 0, 0, 1, 0, 0, 1, 0]) := by decide +kernel

theorem test_witness_ReadRecords_trains :
    answerOf (.readTrain 3 0 0) 3 granted = some (.done [0, 5, 1, 0, 1, 2, 1, 2, 0, 0, 1, 2, 1, 0, 0, 0, 0, 0, 0, 0xFF, 0xFF,
      0, 15, 160, 0xFF]) ∧
    requirementBytes { switch := 3, position := .straight } = [1, 3] ∧
    answerOf (.readClaim 3 0 0) 3 waiting = some (.done [0, 1, 0, 0, 1, 0, 2, 1, 2, 1, 2, 0, 0, 0xFF, 1, 0, 1, 1, 0xFF,
      0, 7, 208, 0, 0]) ∧
    answerOf (.readStep 3 0 1) 3 waiting = some (.done [2, 3, 0, 2, 1, 0, 1, 2, 2, 10, 0, 0xFF, 0xFF]) ∧
    lockingTrains operating.env operating.track 0 = [] ∧
    lockingTrains operating.env (withTrain 5 { rider .running 1 2 with footprint := [2, 3] } operating).track 0 = [5] := by decide +kernel

/-- A reply cut within a list, and one whole behind the items skipped, with the count of the empty list at its end. -/
theorem test_witness_ReadRecords_items :
    packReply 1 [.field [1], .list [], .list [List.replicate 20 7, [8, 8]], .field [9, 9, 9, 9]] =
      [1, 0, 2] ++ List.replicate 20 7 ++ [8, 8] ∧
    packReply 1 [.field [1], .list [List.replicate 20 7, List.replicate 7 8], .field [9]] = [2, 1] ++ List.replicate 20 7 ∧
    packReply 3 [.field [1], .list [], .list [[7], [8, 8]], .list [], .field [9], .list []] = [0, 0, 9, 0] ∧
    packReply 9 [.field [1], .list []] = [0] := by decide +kernel

theorem test_witness_PortCommands_lease :
    refusals [(.setLease 1 1 1 1, 1, .role), (.setLease 0 4 1 1, 0, .argument), (.setLease 0 1 256 1, 0, .argument),
      (.setLease 0 1 1 3, 0, .argument), (.setLease 0 1 1 0, 0, .argument)] standby = true ∧
    (after (.setLease 0 3 255 2) standby).ports[(3 : PortId)].leaseRemaining = some 255000 ∧
    (after (.setLease 0 3 0 1) standby).ports[(3 : PortId)].leaseRemaining = none := by decide +kernel

theorem test_witness_Lapse :
    refusals [(.forceLapse 1 2, 1, .role), (.forceLapse 0 0, 0, .argument), (.forceLapse 0 4, 0, .argument)] operating = true ∧
    (after (.forceLapse 0 3) operating).ports[(3 : PortId)].lapsed = true ∧
    after (.leaseExpiry 2) operating = operating ∧
    (after (.leaseExpiry 0) (operating.modifyPort 0 fun r => { r with leaseRemaining := some 0 })).track.mode = .halted := by
  decide +kernel

/-! ### Layout and routes -/

theorem test_witness_LoadZone :
    refusals [(.loadZone 1 0 none, 1, .role), (.loadZone 0 32 none, 0, .argument),
      (.loadZone 0 31 (some { stationFields with gap := 64 }), 0, .argument),
      (.loadZone 0 31 (some { stationFields with gap := 0 }), 0, .argument),
      (.loadZone 0 31 (some { stationFields with owner := some 0 }), 0, .argument),
      (.loadZone 0 31 (some { stationFields with ready := none }), 0, .argument)] loaded = true ∧
    refusals [(.loadZone 0 0 none, 0, .locked)] standby = true ∧
    (after (.loadZone 0 31 (some stationFields)) loaded).layout.zones[(31 : ZoneId)] = some
      { kind := .station, exit := .switch 3, entryHigh := true, stopHigh := some false, settle := 15, gap := 63, limit := 255
        travel := 0, window := some 1, ready := some 3, owner := some 1, wait := some 255 } ∧
    (after (.loadZone 0 0 none) loaded).layout.zones[(0 : ZoneId)] = none := by decide +kernel

theorem test_witness_zoneAdmissible : zoneAdmissible stationFields := by
  refine ⟨by decide, by decide, by decide, by decide, by decide, by decide, fun _ => ⟨3, rfl⟩, by decide, by decide, ?_⟩
  intro n h; cases h; decide

theorem test_witness_LoadSwitchPortGlobals :
    let x : SwitchFields := { kind := .merge, root := 31, straight := 0, diverge := 1, moveLimit := 255 }
    refusals [(.loadSwitch 1 0 none, 1, .role), (.loadSwitch 0 4 none, 0, .argument),
      (.loadSwitch 0 3 (some { x with root := 32 }), 0, .argument), (.loadSwitch 0 3 (some { x with moveLimit := 0 }), 0, .argument),
      (.loadPort 2 1 2, 2, .role), (.loadPort 0 0 2, 0, .argument), (.loadPort 0 4 2, 0, .argument),
      (.loadPort 0 1 1, 0, .argument), (.loadPort 0 1 5, 0, .argument), (.loadGlobals 3 0 1 0, 3, .role),
      (.loadGlobals 0 8 1 0, 0, .argument), (.loadGlobals 0 0 0 0, 0, .argument), (.loadGlobals 0 0 16 0, 0, .argument),
      (.loadGlobals 0 0 1 8, 0, .argument)] loaded = true ∧
    refusals [(.loadSwitch 0 0 none, 0, .locked), (.loadPort 0 1 2, 0, .locked), (.loadGlobals 0 0 1 0, 0, .locked)] standby =
      true ∧
    (isDone (.loadSwitch 0 3 (some x)) loaded && isDone (.loadSwitch 0 0 none) loaded && isDone (.loadPort 0 3 4) loaded &&
      isDone (.loadGlobals 0 7 15 7) loaded) = true := by decide +kernel

theorem test_witness_CommitAndUncommit :
    noticesOf 3 (after (.commit 0) loaded) = [.mode] ∧ noticesOf 0 (after (.uncommit 0) standby) = [.mode] ∧
    refusals [(.commit 1, 1, .role), (.uncommit 0, 0, .mode)] loaded = true ∧
    refusals [(.commit 0, 0, .locked), (.uncommit 1, 1, .role)] standby = true ∧
    refusals [(.commit 0, 0, .mode)] State.reset = true ∧ refusals [(.uncommit 0, 0, .mode)] operating = true ∧
    answerOf (.commit 0) 0 (inMode .unconfigured State.reset) = some (.invalid 1 .none) ∧
    isDone (.commit 0) loaded = true ∧ isDone (.uncommit 0) standby = true ∧
    refusals [(.uncommit 0, 0, .state)] (resting 0 .stored 0 0 standby) = true ∧
    refusals [(.uncommit 0, 0, .busy)] { standby with track := (standby.work.modifySwitch 0 fun r =>
      { r with state := .moving .straight 1 .none }).toTrack } = true := by decide +kernel

theorem test_witness_LegsAndCommitChecks_legs :
    (standby.layout.legs.map fun g => (g.start, g.zones)) = [(0, [1, 2]), (2, [3]), (2, [4]), (3, [0]), (4, [0])] := by
  decide +kernel

theorem test_witness_LegsAndCommitChecks_order :
    check2 ring = none ∧ check3 ring = none ∧ check4 ring = none ∧
    ((legSet ring).map fun g => (g.start, g.reqs)) =
      [(0, []), (2, [{ switch := 0, position := .straight }]), (2, [{ switch := 0, position := .diverge }]),
        (3, [{ switch := 1, position := .straight }]), (4, [{ switch := 1, position := .diverge }])] := by decide +kernel

theorem test_witness_legPath : ring.legPath 2 [(4, some { switch := 0, position := .diverge })] := by
  refine ⟨⟨_, rfl, by decide⟩, ⟨⟨_, rfl, .inr ⟨0, _, rfl, rfl, .inr (.inl ⟨rfl, rfl, rfl⟩)⟩⟩, trivial⟩,
    ⟨_, rfl, _, rfl, by decide⟩, by simp⟩

/-- The ring with one zone record replaced. -/
def ringWith (z : ZoneId) (r : ZoneLayout) : Layout := { ring with zones := ring.zones.set z (some r) }

/-- Zones Z5 to Z9 in a row, RUN each, the last leading to this one. -/
def chain (x : Exit) : Layout :=
  { ring with zones := (((((ring.zones.set 5 (some (zoneOf .run (.zone 6) none none))).set 6
      (some (zoneOf .run (.zone 7) none none))).set 7 (some (zoneOf .run (.zone 8) none none))).set 8
      (some (zoneOf .run x none none)))).set 9 (some (zoneOf .run (.zone 0) none none)) }

theorem test_witness_LegsAndCommitChecks :
    commitChecks ring = none ∧ check1 Layout.reset = some .none ∧
    check1 (ringWith 1 (zoneOf .run (.zone 9) none none)) = some (.zone 1) ∧
    check2 { ring with zones := ring.zones.set 3 none } = some (.switch 0) ∧
    check2 (ringWith 9 (zoneOf .run (.switch 0) none none)) = some (.zone 9) ∧
    check3 (chain (.zone 9)) = some (.zone 5) ∧ check4 (chain (.zone 6)) = some (.zone 6) ∧
    check5 (ringWith 9 (zoneOf .station (.zone 1) (some 0) (some 1))) = some (.zone 9) ∧
    check6 (ringWith 9 (zoneOf .brake (.zone 1) none (some 1))) = some (.zone 9) ∧
    check7 { ring with roles := #v[.supervisor, .station, .transfer, .station] } = some (.port 3) := by decide +kernel

/-- Fields of LOAD_STEP at the station. -/
def stepFields : StepFields := { zone := 0, action := some .hold, dwell := 255, opener := some (.counted 255, 15) }

theorem test_witness_LoadStep :
    refusals [(.loadStep 1 1 0 noStep, 1, .role), (.loadStep 0 8 0 noStep, 0, .argument), (.loadStep 0 1 16 noStep, 0, .argument),
      (.loadStep 0 1 15 stepFields, 0, .argument), (.loadStep 0 1 0 { stepFields with zone := 1 }, 0, .argument),
      (.loadStep 0 0 0 stepFields, 0, .busy)] parked = true ∧
    refusals [(.loadStep 0 1 0 noStep, 0, .mode)] loaded = true ∧ isDone (.loadStep 0 1 14 stepFields) operating = true ∧
    ((after (.loadStep 0 0 0 noStep) operating).routes[(0 : RouteId)]).state = .draft ∧
    ((after (.loadStep 0 1 0 noStep) operating).routes[(1 : RouteId)]).state = .empty := by decide +kernel

theorem test_witness_stepAdmissible : stepAdmissible operating.layout 14 stepFields := by
  refine ⟨fun _ => ⟨0, by decide, zoneOf .station (.zone 1) (some 0) (some 1), by decide +kernel, by decide⟩, by decide, ?_⟩
  intro o e h; cases h; exact ⟨by decide, by decide, fun n h => by cases h; decide⟩

theorem test_witness_ClearRoute :
    refusals [(.clearRoute 1 0, 1, .role), (.clearRoute 0 8, 0, .argument), (.clearRoute 0 0, 0, .busy)] parked = true ∧
    refusals [(.clearRoute 0 0, 0, .mode)] loaded = true ∧ isDone (.clearRoute 0 7) parked = true := by decide +kernel

theorem test_witness_routeInUse : parked.track.routeInUse 0 ∧ ¬ operating.track.routeInUse 0 := by
  have h : ∀ t : TrainId, (operating.track.trains[t]).ride = none := by decide +kernel
  refine ⟨⟨0, { route := 0, cursor := 2, frames := [], stalled := false, atEnd := false }, by decide +kernel, rfl⟩, ?_⟩
  rintro ⟨t, d, hd, -⟩; rw [h t] at hd; cases hd

/-- The tour as a draft. -/
def drafted : State := operating.setRoute 0 { tour with state := .draft }

theorem test_witness_SealRoute :
    refusals [(.sealRoute 1 0 3 true, 1, .role), (.sealRoute 0 8 3 true, 0, .argument), (.sealRoute 0 0 0 true, 0, .argument),
      (.sealRoute 0 0 17 true, 0, .argument), (.sealRoute 0 1 3 true, 0, .state)] drafted = true ∧
    refusals [(.sealRoute 0 0 3 true, 0, .mode)] loaded = true ∧ refusals [(.sealRoute 0 0 3 true, 0, .busy)] parked = true ∧
    isDone (.sealRoute 0 0 3 false) drafted = true ∧
    answerOf (.sealRoute 0 0 16 false) 0 drafted = some (.invalid 1 (.step 3)) := by decide +kernel

/-- Five steps at the brake whose openers reach to these steps. -/
def opened (xs : List (StepId × StepId)) : Route :=
  { state := .draft
    slots := Vector.ofFn fun k => if k.val < 5 then
      some { zone := 2, action := .pass
             opener := (xs.find? fun q => decide (q.1 = k)).map fun q => { kind := .counted 0, endStep := q.2 } } else none }

theorem test_witness_SealChecks :
    sealChecks operating.layout tour 3 false = none ∧ sealCheck1 tour 4 = some 3 ∧ sealCheck1 tour 2 = some 2 ∧
    sealCheck2 (opened [(1, 6)]) 5 = some 1 ∧ sealCheck3 (opened [(0, 2), (1, 2)]) = some 1 ∧
    sealCheck4 (opened [(0, 9), (1, 8), (2, 7), (3, 6), (4, 5)]) = some 4 ∧
    sealCheck5 operating.layout (opened [(1, 3)]) 5 false = some 0 ∧ sealCheck6 operating.layout (opened [(1, 3)]) true = some 1 ∧
    sealCheck6 operating.layout (opened [(1, 3)]) false = none ∧
    sealCheck7 operating.layout { tour with slots := tour.slots.set 4 (some { zone := 2, action := .dispatch, opener := none }) } =
      some 4 ∧
    sealCheck8 operating.layout { tour with slots := tour.slots.set 4 (some { zone := 0, action := .park, opener := none }) } =
      some 4 := by decide +kernel

/-- A route whose step 1 opens a loop to its own end. -/
def looped (k : OpenerKind) : Route :=
  { tour with slots := tour.slots.set 1 (some { zone := 2, action := .pass, opener := some { kind := k, endStep := 2 } }) }

/-- The frame of that loop. -/
def loopFrame (k : FrameKind) (broken : Bool) : Frame := { start := 1, endStep := 2, kind := k, lap := 3, broken := broken }

theorem test_witness_NextStepSelection :
    selectStep tour 2 [] = none ∧ selectStep tour 1 [loopFrame .forever false] = some { target := 2, ops := [] } ∧
    selectStep tour 2 [loopFrame .forever false] = some { target := 1, ops := [.lapUp] } ∧
    selectStep tour 2 [loopFrame .forever true] = none ∧
    selectStep tour 2 [loopFrame (.counted 2) false] = some { target := 1, ops := [.lapUp, .countDown] } ∧
    selectStep tour 2 [loopFrame (.counted 1) false] = none ∧ selectStep tour 2 [loopFrame (.counted 9) true] = none ∧
    forwardTo (looped .forever) 3 false 17 1 =
      some (1, [.push { start := 1, endStep := 2, kind := .forever, lap := 0, broken := false }]) ∧
    forwardTo (looped (.counted 1)) 3 false 17 1 =
      some (1, [.push { start := 1, endStep := 2, kind := .counted 1, lap := 0, broken := false }]) ∧
    forwardTo (looped (.counted 0)) 3 true 17 1 =
      some (1, [.push { start := 1, endStep := 2, kind := .counted 256, lap := 0, broken := false }]) ∧
    forwardTo (looped (.counted 0)) 3 false 17 1 = none := by decide +kernel

theorem test_witness_NextStepSelection_frames :
    applyFrameOps [loopFrame (.counted 2) false] [.lapUp, .countDown] = [{ loopFrame (.counted 1) false with lap := 4 }] ∧
    applyFrameOps [{ loopFrame .forever true with lap := 65535 }] [.lapUp] = [{ loopFrame .forever true with lap := 65535 }] ∧
    applyFrameOps [loopFrame .forever true] [.lapUp, .pop, .push (loopFrame .forever false)] = [loopFrame .forever false] ∧
    placedFrames tour 0 = [] ∧ placedFrames (looped .forever) 1 = [{ loopFrame .forever false with lap := 0 }] ∧
    placedFrames (looped (.counted 3)) 1 = [{ loopFrame (.counted 3) false with lap := 0 }] ∧
    placedFrames (looped (.counted 0)) 1 = [] ∧
    placedFrames { looped (.counted 0) with state := .sealed 3 true } 1 = [{ loopFrame (.counted 256) false with lap := 0 }] := by
  decide +kernel

/-! ### Modes -/

theorem test_witness_SetMode :
    refusals [(.setMode 1 2, 1, .role), (.setMode 0 1, 0, .argument), (.setMode 0 5, 0, .argument)] operating = true ∧
    refusals [(.setMode 0 2, 0, .mode)] loaded = true ∧ refusals [(.setMode 0 4, 0, .mode)] (inMode .estopped standby) = true ∧
    isDone (.setMode 0 3) operating = true ∧
    refusals [(.setMode 0 3, 0, .state)] (withZoneState 3 (.fault .overdue) standby) = true ∧
    (after (.setMode 0 3) standby).track.mode = .operating ∧ refusals [(.setMode 0 2, 0, .state)] (underWay .running) = true ∧
    (after (.setMode 0 2) operating).track.mode = .standby ∧ (after (.setMode 0 4) operating).track.mode = .halted ∧
    (after (.setMode 0 4) standby).track.mode = .halted := by decide +kernel

/-- The emergency stop entered with both lines active, and with one. -/
def stopped (a b : Bool) : State :=
  { inMode .estopped operating with
    inputs := { quiet with estop := #v[steady (!a), steady (!b)] } }

theorem test_witness_EmergencyStopAndRideHalt_lines :
    after (.estopLineChange 0 false) operating = operating ∧
    (after (.estopLineChange 0 true) operating).track.mode = .estopped ∧
    (after (.estopLineChange 0 true) { stopped false false with track := { (stopped false false).track with
      estopClear := some 7 } }).track.estopClear = none ∧
    (after (.estopLineChange 0 false) (stopped true false)).track.estopClear = some 500 ∧
    (after (.estopLineChange 0 false) (stopped true true)).track.estopClear = none ∧
    (after .estopClearExpiry { operating with track := { (inMode .estopped operating).track with estopClear := some 0 } }).track.mode =
      .halted ∧
    (after .estopClearExpiry { loaded with track := { (inMode .estopped loaded).track with estopClear := some 0 } }).track.mode =
      .unconfigured ∧
    after .estopClearExpiry operating = operating := by decide +kernel

theorem test_witness_EmergencyStopAndRideHalt_halt :
    ((rideHalt operating.env .halted (underWay .running).work).trains[(0 : TrainId)]).state = .halted ∧
    (rideHalt operating.env .estopped granted.work).hold 0 = some .held ∧ granted.track.hold 0 = some .released := by
  decide +kernel

/-- The dispatch of `waiting`, SETTING. -/
def settingDispatch : State :=
  { waiting with track := { waiting.track with claims := waiting.track.claims.map fun c => { c with state := .setting [0] } } }

theorem test_witness_EmergencyStopAndRideHalt_steps :
    settingDispatch.track.claims.length = 1 ∧
    ((rideHalt settingDispatch.env .halted settingDispatch.work).claims.map (·.state)) = [.waiting] ∧
    (let w := haltResting 0 granted.work
     ((w.trains[(0 : TrainId)]).state, w.posts.map (fun o => (o.note.name, o.note.detail1)), w.zoneState 1) =
       (.standing, [(.dispatchAborted, 4)], some .clear)) ∧
    haltResting 0 (underWay .running).work = (underWay .running).work := by decide +kernel

theorem test_witness_EmergencyStopAndRideHalt_estop :
    (let w := enterEstopped throwing.env true false throwing.work
     (w.posts.map (fun o => (o.note.name, o.note.detail1, o.note.detail2)), w.switchState 0) =
       ([(.switchAbandoned, 1, 0xFF), (.mode, 69, 1)], some (.settled .straight))) ∧
    (enterEstopped loaded.env false true loaded.work).posts.length = 1 := by decide +kernel

/-! ### Trains, zones and switches by order of the supervisor -/

theorem test_witness_PlaceTrain :
    refusals [(.placeTrain 1 0 0 0 .none, 1, .role), (.placeTrain 0 8 0 0 .none, 0, .argument),
      (.placeTrain 0 0 1 0 .none, 0, .argument), (.placeTrain 0 0 32 0 .none, 0, .argument),
      (.placeTrain 0 0 0 0 (.at 8 0), 0, .argument), (.placeTrain 0 0 0 0 .keep, 0, .state),
      (.placeTrain 0 0 0 0 (.at 1 0), 0, .state), (.placeTrain 0 0 0 0 (.at 0 3), 0, .argument),
      (.placeTrain 0 0 0 0 (.at 0 1), 0, .argument)] operating = true ∧
    refusals [(.placeTrain 0 0 0 0 .none, 0, .mode)] loaded = true ∧
    refusals [(.placeTrain 0 0 4 0 .none, 0, .state), (.placeTrain 0 1 3 0 .none, 0, .state)] parked = true ∧
    isDone (.placeTrain 0 7 4 9 .none) operating = true ∧ isDone (.placeTrain 0 7 3 9 (.at 0 2)) operating = true := by
  decide +kernel

/-- A LOST train that keeps its place at the PARK step. -/
def lostTrain : State := withTrain 0 { rider .lost 2 0 with footprint := [] } operating

theorem test_witness_PlaceTrain_keep :
    refusals [(.placeTrain 0 0 4 0 .keep, 0, .argument)] lostTrain = true ∧ isDone (.placeTrain 0 0 3 0 .keep) lostTrain = true ∧
    ((after (.placeTrain 0 0 3 0 .keep) lostTrain).track.trains[(0 : TrainId)]).state = .standing := by decide +kernel

/-- A train STORED in Z3 without a route. -/
def stored : State := withTrain 0 { rider .stored 0 3 with ride := none } parked

theorem test_witness_AssignAndRetire :
    refusals [(.assignRoute 1 0 0 2, 1, .role), (.assignRoute 0 8 0 2, 0, .argument), (.assignRoute 0 0 8 2, 0, .argument),
      (.assignRoute 0 1 0 2, 0, .state), (.assignRoute 0 0 1 2, 0, .state), (.assignRoute 0 0 0 1, 0, .argument),
      (.assignRoute 0 0 0 3, 0, .argument), (.retireTrain 1 0 1, 1, .role), (.retireTrain 0 8 1, 0, .argument),
      (.retireTrain 0 0 3, 0, .argument), (.retireTrain 0 0 0, 0, .argument), (.retireTrain 0 0 1, 0, .state)] stored = true ∧
    refusals [(.assignRoute 0 0 0 2, 0, .mode), (.retireTrain 0 0 1, 0, .mode)] loaded = true ∧
    isDone (.assignRoute 0 0 0 2) stored = true ∧ isDone (.retireTrain 0 0 1) parked = true ∧
    refusals [(.retireTrain 0 0 2, 0, .state)] parked = true ∧ isDone (.retireTrain 0 0 2) stored = true ∧
    (after (.retireTrain 0 0 2) stored).track.zoneState 3 = some .unknown := by decide +kernel

theorem test_witness_SwitchAndZoneOrders :
    refusals [(.assertZone 1 4 1, 1, .role), (.assertZone 0 31 1, 0, .argument), (.assertZone 0 32 1, 0, .argument),
      (.assertZone 0 4 2, 0, .argument), (.assertZone 0 4 1, 0, .state), (.resetSwitch 1 0, 1, .role),
      (.resetSwitch 0 3, 0, .argument)] operating = true ∧
    refusals [(.assertZone 0 4 1, 0, .mode), (.resetSwitch 0 0, 0, .mode)] loaded = true ∧
    isDone (.assertZone 0 4 1) standby = true ∧ refusals [(.assertZone 0 4 1, 0, .state)] (standby.setInput (.stop 4) true) = true ∧
    isDone (.resetSwitch 0 1) operating = true ∧ refusals [(.resetSwitch 0 0, 0, .state)] yard = true ∧
    refusals [(.resetSwitch 0 0, 0, .busy)] throwing = true := by decide +kernel

/-- A train STANDING at the brake's HOLD step, with a frame. -/
def atBrake : State :=
  withTrain 0 { rider .standing 1 2 with
    dwell := some 1000
    ride := some { route := 0, cursor := 1, frames := [loopFrame .forever false], stalled := false, atEnd := false } }
    (resting 0 .standing 1 2 operating)

theorem test_witness_ProceedAndBreakLoop :
    refusals [(.proceed 1 0, 1, .role), (.proceed 0 8, 0, .argument), (.proceed 0 1, 0, .state), (.breakLoop 1 0, 1, .role),
      (.breakLoop 0 8, 0, .argument), (.breakLoop 0 1, 0, .state)] atBrake = true ∧
    refusals [(.proceed 0 0, 0, .mode), (.breakLoop 0 0, 0, .mode)] loaded = true ∧
    refusals [(.proceed 0 0, 0, .state)] parked = true ∧ answerOf (.proceed 0 0) 0 atBrake = some .accepted ∧
    ((after (.breakLoop 0 0) atBrake).track.trains[(0 : TrainId)]).ride.map (·.frames) = some [loopFrame .forever true] := by
  decide +kernel

theorem test_witness_SwitchAndZoneOrders_locks :
    isLocked operating.env (after (.proceed 0 0) atBrake).track 0 = true ∧
    isLocked operating.env atBrake.track 0 = false ∧ (after (.proceed 0 0) atBrake).track.hold 2 = some .released := by
  decide +kernel

/-- The tour with this action at the brake's step, and T0 in the brake zone in this state. -/
def brakeStep (a : StepAction) (x : TrainState) : State :=
  let s := resting 0 x 1 2 operating
  { s with routes := s.routes.set 0 { tour with slots := tour.slots.set 1 (some { zone := 2, action := a, opener := none }) } }

theorem test_witness_ResumeAndStandby :
    (let s := brakeStep .pass .standing
     ((resume s.env s.work).trains[(0 : TrainId)]).state = .claiming) ∧
    ((resume atBrake.env atBrake.work).trains[(0 : TrainId)]).dwell = some 1000 ∧
    (let s := brakeStep (.hold 0) .standing
     ((resume s.env s.work).trains[(0 : TrainId)]).state = .claiming) ∧
    resume parked.env parked.work = parked.work ∧
    (waiting.track.claims.map fun c => (standbyClaim c waiting.work).posts.map (·.note.name)) = [[.dispatchAborted]] ∧
    (noticesOf 0 (after (.setMode 0 2) waiting)) = [.dispatchAborted, .mode] := by decide +kernel

/-- T0 RUNNING, or HALTED, in the brake zone, whose stop sensor is active. -/
def brakeStepWith (x : TrainState) (cs : List Claim) (s : State) : State :=
  { s with track := { s.track with claims := cs, trains := s.track.trains.set 0 { s.track.trains[0] with state := x } } }

/-- The claim of T0 for the leg from the brake zone to Z3. -/
def brakeClaim (x : ClaimState) : Claim :=
  { seq := 0, state := x, wait := none, bypass := 0
    body := .leg { train := 0, origin := .auto, start := 2, zones := [3], reqs := [{ switch := 0, position := .straight }]
                   decision := { target := 2, ops := [] } } }

theorem test_witness_ComingToRest :
    (let t := fun (x : TrainState) (a : StepAction) (cs : List Claim) =>
       let s := brakeStepWith x cs (brakeStep a x)
       let r := (restTrain s.env 0 s.work).trains[(0 : TrainId)]
       (r.state, r.dwell)
     [t .running (.hold 7) [], t .running .pass [], t .running .pass [brakeClaim .waiting], t .running .dispatch [],
       t .halted (.hold 7) [brakeClaim .waiting], t .halted (.hold 0) [], t .standing .park []] =
     [(.standing, some 700), (.claiming, none), (.claiming, none), (.standing, none), (.claiming, none), (.claiming, none),
       (.standing, none)]) ∧
    (let s := brakeStep .park .running
     ((restTrain s.env 0 s.work).posts.map (·.note.name)) = [.arrived, .atPark]) := by decide +kernel

/-! ### Station masters and transfer masters -/

theorem test_witness_DispatchAndCancel_dispatch :
    refusals [(.dispatch 2 0, 2, .role), (.dispatch 1 2, 1, .argument), (.dispatch 1 31, 1, .argument),
      (.dispatch 1 32, 1, .argument)] atStation = true ∧
    refusals [(.dispatch 1 0, 1, .role)] { atStation with layout := { atStation.layout with
      zones := atStation.layout.zones.set 0 (some (zoneOf .station (.zone 1) (some 0) (some 3))) } } = true ∧
    refusals [(.dispatch 1 0, 1, .mode)] (inMode .halted atStation) = true ∧
    refusals [(.dispatch 1 0, 1, .state)] operating = true ∧
    refusals [(.dispatch 1 0, 1, .notReady)] (atStation.setInput (.ready 0) false) = true ∧
    answerOf (.dispatch 1 0) 1 atStation = some .accepted ∧ hasPending atStation.track 0 = false ∧
    (selectStep tour 0 []).map (·.target) = some 1 ∧ (legBetween ring 0 2) = none ∧
    (legBetween atStation.layout 0 2).map (·.zones) = some [1, 2] := by decide +kernel

/-- The station as the last step of a route. -/
def atLastStation : State := { atStation with routes := atStation.routes.set 0 { tour with state := .sealed 1 false } }

theorem test_witness_DispatchAndCancel_end :
    selectStep { tour with state := .sealed 1 false } 0 [] = none ∧ answerOf (.dispatch 1 0) 1 atLastStation = some (.done []) ∧
    ((after (.dispatch 1 0) atLastStation).track.trains[(0 : TrainId)]).ride.map (·.atEnd) = some true := by decide +kernel

/-- A fourth step of the tour, so that the train at PARK has somewhere to go. -/
def longTour : Route :=
  { state := .sealed 4 false, slots := tour.slots.set 3 (some { zone := 0, action := .pass, opener := none }) }

theorem test_witness_Move :
    refusals [(.move 1 3, 1, .role), (.move 2 1, 2, .argument), (.move 2 31, 2, .argument), (.move 2 32, 2, .argument),
      (.move 2 2, 2, .role), (.move 2 4, 2, .state)] parked = true ∧
    refusals [(.move 2 3, 2, .mode)] (inMode .halted parked) = true ∧ answerOf (.move 2 3) 2 parked = some (.done []) ∧
    answerOf (.move 2 3) 2 { parked with routes := parked.routes.set 0 longTour } = some .accepted := by decide +kernel

theorem test_witness_DispatchAndCancel_cancel :
    refusals [(.cancelDispatch 2 0, 2, .role), (.cancelDispatch 1 2, 1, .argument)] waiting = true ∧
    refusals [(.cancelDispatch 1 0, 1, .state)] granted = true ∧ dispatchPhase waiting.track 0 = some (.waiting, 0) ∧
    (dispatchClaim waiting.track 0 0).isSome = true ∧
    ((after (.cancelDispatch 1 0) waiting).ports[(1 : PortId)]).replies.getLast?.map (·.body) = some (.done []) ∧
    ((after (.cancelDispatch 1 0) waiting).track.trains[(0 : TrainId)]).state = .standing := by decide +kernel

theorem test_witness_DispatchAndCancel_phases :
    (dispatchPhase waiting.track 0, dispatchPhase settingDispatch.track 0, dispatchPhase granted.track 0) =
      (some (.waiting, 0), some (.setting, 0), some (.cleared, 0)) ∧
    (progressOrigin waiting.track 0, progressOrigin granted.track 0, progressOrigin parked.track 0) =
      (some (.dispatch 1), some (.dispatch 1), none) ∧
    (postAbort 0 (some (.move 2)) .lost parked.work).posts.map (fun o => (o.note.name, o.note.detail1, o.named)) =
      [(.moveAborted, 8, [0, 2])] := by decide +kernel

/-! ### Sections -/

theorem test_witness_RequestAndCancelSection :
    refusals [(.requestSection 1 [3] none, 1, .role), (.requestSection 2 [] none, 2, .argument),
      (.requestSection 2 [0, 1, 2, 3, 4, 5, 6, 7, 8] none, 2, .argument), (.requestSection 2 [3, 3] none, 2, .argument),
      (.requestSection 2 [31] none, 2, .argument), (.requestSection 2 [32] none, 2, .argument),
      (.requestSection 2 [3] (some 0), 2, .argument), (.requestSection 2 [3] (some 256), 2, .argument),
      (.cancelSection 1, 1, .role), (.cancelSection 2, 2, .state)] operating = true ∧
    refusals [(.requestSection 0 [3] none, 0, .mode)] loaded = true ∧ refusals [(.requestSection 2 [4] none, 2, .state)] handed = true ∧
    answerOf (.requestSection 2 [4, 3, 2] (some 255)) 2 operating = some .accepted ∧ handed.track.zoneState 3 = some (.handed 2) ∧
    ((yard.track.heldSection 0).map (·.switches)) = some [0] := by decide +kernel

theorem test_witness_RequestAndCancelSection_preLapse :
    perform 2 true (.requestSection [3] none) operating = (operating, .refused .state) := by decide +kernel

/-- A train that runs in the brake zone. -/
def running : State := withTrain 1 (rider .running 1 2) (withZoneState 2 (.occupied 1) operating)

/-- A section claim that waits for it. -/
def claimed : State := after (.requestSection 2 [2] (some 255)) running

theorem test_witness_RequestAndCancelSection_cancel :
    claimed.track.sections[(2 : PortId)] = .claimed ∧ answerOf (.cancelSection 2) 2 claimed = some (.done []) ∧
    ((after (.cancelSection 2) claimed).track.sections[(2 : PortId)], (after (.cancelSection 2) claimed).track.claims) =
      (Section.none, []) := by decide +kernel

theorem test_witness_ReturnSection :
    refusals [(.returnSection 1 [], 1, .role), (.returnSection 0 [], 0, .state), (.returnSection 2 [(4, .empty)], 2, .argument),
      (.returnSection 2 [(3, .train 8)], 2, .argument), (.returnSection 2 [(3, .empty), (3, .empty)], 2, .argument)] handed =
      true ∧
    (after (.returnSection 2 [(3, .train 1)]) handed).track.zoneState 3 = some (.occupied 1) ∧
    (after (.returnSection 2 []) handed).track.zoneState 3 = some .unknown ∧
    (after (.returnSection 2 []) handed).track.sections[(2 : PortId)] = .none := by decide +kernel

theorem test_witness_ReturnSection_judge :
    judgeZone handed.env handed.track 2 [] 3 = .unknown .undeclared ∧
    judgeZone handed.env handed.track 2 [(3, none)] 3 = .unknown .stopSensor ∧
    judgeZone handed.env handed.track 2 [(4, none)] 4 = .clear ∧
    judgeZone timed.env timed.track 2 [(1, none)] 1 = .unknown .passage ∧
    judgeZone handed.env handed.track 2 [(1, some 1)] 1 = .unknown .runZone ∧
    judgeZone granted.env granted.track 2 [(3, some 0)] 3 = .unknown .trainState ∧
    judgeZone handed.env handed.track 2 [(3, some 1), (4, some 1)] 3 = .unknown .duplicate ∧
    judgeZone handed.env handed.track 2 [(3, some 7)] 3 = .occupied 7 := by decide +kernel

/-- The section of CP2 with the train at its PARK step; and one of two zones, with the train of `handed`. -/
def parkedHanded : State := after (.requestSection 2 [3] none) parked

def twoHanded : State := after (.requestSection 2 [3, 4] none) (resting 1 .stored 1 3 operating)

theorem test_witness_SectionReturnEffects :
    (let r := (after (.returnSection 2 [(3, .train 0)]) parkedHanded)
     (r.track.trains[(0 : TrainId)]).state = .standing ∧ noticesOf 0 r = [.sectionGranted, .sectionReturned, .atPark]) ∧
    ((after (.returnSection 2 [(3, .train 1)]) handed).track.trains[(1 : TrainId)]).state = .stored ∧
    ((after (.returnSection 2 [(3, .train 7)]) handed).track.trains[(7 : TrainId)]).state = .stored ∧
    ((after (.returnSection 2 [(3, .train 1), (4, .train 1)]) twoHanded).track.trains[(1 : TrainId)]).state = .lost ∧
    noticesOf 0 (after (.returnSection 2 []) handed) = [.sectionGranted, .returnMismatch, .trainRemoved, .sectionReturned] ∧
    (throwing.track.switches[(0 : SwitchId)]).map (fun r => (leaveSection r).sectionPort) = some none := by decide +kernel

theorem test_witness_SetHoldAndMoveSwitch :
    refusals [(.setHold 1 3 1, 1, .role), (.setHold 2 1 1, 2, .argument), (.setHold 2 32 1, 2, .argument),
      (.setHold 2 3 0, 2, .argument), (.setHold 2 3 3, 2, .argument), (.setHold 2 4 2, 2, .state),
      (.moveSwitch 1 0 1, 1, .role), (.moveSwitch 2 2 1, 2, .argument), (.moveSwitch 2 0 3, 2, .argument),
      (.moveSwitch 2 0 1, 2, .state)] handed = true ∧
    refusals [(.setHold 2 3 2, 2, .mode)] (inMode .estopped handed) = true ∧
    refusals [(.moveSwitch 0 0 2, 0, .mode)] (inMode .estopped yard) = true ∧ refusals [(.moveSwitch 0 0 1, 0, .busy)] throwing = true ∧
    (after (.setHold 2 3 2) handed).track.hold 3 = some .released ∧ isDone (.moveSwitch 0 0 1) yard = true ∧
    throwing.track.driveLines 0 = (false, true) := by decide +kernel

theorem test_witness_Lapse_takesBack :
    noticesOf 0 (after (.forceLapse 0 1) waiting) = [.dispatchAborted, .leaseLapsed] ∧
    noticesOf 0 (after (.forceLapse 0 2) (heard claimed)) = [.sectionWithdrawn, .leaseLapsed] ∧
    noticesOf 0 (after (.forceLapse 0 2) (heard handed)) = [.sectionRevoked, .leaseLapsed] ∧
    (let t := (after (.forceLapse 0 2) handed).track
     (t.zoneState 3, t.sections[(2 : PortId)], (t.trains[(1 : TrainId)]).state) = (some .unknown, .none, .lost)) ∧
    (let t := (after (.leaseExpiry 0) (throwing.modifyPort 0 fun r => { r with leaseRemaining := some 0 })).track
     (t.switchState 0, t.driveLines 0) = (some (.settled .straight), (false, false))) := by decide +kernel

/-! ### Field events and timer events -/

/-- A tracker on Z1 of a ride with the train under way to it. -/
def passing (k : Tracker) : State := { underWay .running with track := ((underWay .running).work.setTracker 1 k).toTrack }

theorem test_witness_PassageTracking :
    after (.entrySensorChange 1 false) (passing .idle) = passing .idle ∧
    (after (.entrySensorChange 1 true) (passing .idle)).track.trackers[(1 : ZoneId)] = some (.passing false 2000 none) ∧
    (after (.entrySensorChange 1 false) ((passing .idle).setInput (.entry 1) true)) = passing .idle ∧
    (after (.entrySensorChange 1 true) (passing (.passing false 7 (some 3)))).track.trackers[(1 : ZoneId)] =
      some (.passing false 7 none) ∧
    (after (.entrySensorChange 1 true) (passing (.stuck (some 3)))).track.trackers[(1 : ZoneId)] = some (.stuck none) ∧
    (after (.passageGapExpiry 1) (passing (.passing false 7 (some 0)))).track.trackers[(1 : ZoneId)] = some .idle ∧
    after (.passageGapExpiry 1) (passing (.passing true 7 (some 0))) = passing .idle ∧
    after (.passageGapExpiry 1) (passing (.stuck (some 0))) = passing .idle ∧
    after (.passageGapExpiry 1) (passing .idle) = passing .idle ∧ after (.passageLimitExpiry 1) (passing .idle) = passing .idle ∧
    (after (.passageLimitExpiry 1) (passing (.passing true 0 none))).track.mode = .halted := by decide +kernel

/-- The train with its head in Z1, and in Z2. -/
def headOne : State := after (.entrySensorChange 1 true) (underWay .running)

def headTwo : State := after (.entrySensorChange 2 true) headOne

theorem test_witness_HeadAndTailEvents :
    (headEvent operating.env 31 operating.work).posts = [] ∧
    ((headEvent handed.env 3 handed.work).posts.map (·.note.name)) = [.passage] ∧
    ((tailEvent handed.env 3 handed.work).posts.map (·.note.name)) = [.passage] ∧
    (headEvent operating.env 4 operating.work).zoneState 4 = some (.fault .intrusion) ∧
    ((headOne.track.trains[(0 : TrainId)]).footprint, headOne.track.mode) = ([0, 1], .operating) ∧
    ((tailEvent operating.env 4 operating.work).posts.map (·.note.name)) = [.sensorAnomaly] ∧
    (headEvent granted.env 2 granted.work).mode = .halted ∧
    (headEvent granted.env 1 (underWay .standing).work).zoneState 1 = some (.fault .intrusion) ∧
    ((tailEvent headOne.env 0 headOne.work).posts.map (·.note.name)) = [.sensorAnomaly] := by decide +kernel

/-- A train whose footprint has grown to four zones. -/
def longTrain : State :=
  withTrain 0 { ((underWay .running).track.trains[(0 : TrainId)]) with footprint := [3, 4, 5, 0] } (underWay .running)

theorem test_witness_HeadAndTailEvents_short :
    ((headEvent longTrain.env 1 longTrain.work).posts.map (·.note.name)).head? = some .shortZone ∧
    (longTrain.track.trains[(0 : TrainId)]).ahead = [1, 2] := by decide +kernel

theorem test_witness_ShortZoneAndMissedSensor :
    (longTrain.track.trains[(0 : TrainId)]).footprint.length = 4 ∧
    (checkShort longTrain.env 0 0 longTrain.work).mode = .halted ∧ checkShort headOne.env 0 1 headOne.work = headOne.work ∧
    ((overrunShort longTrain.env 0 longTrain.work).trains[(0 : TrainId)]).state = .lost ∧
    (let w := missSensor granted.env 0 2 granted.work
     (w.zoneState 1, w.zoneState 0, w.zoneState 2, w.mode) =
       (some (.fault .sensorMissed), some .unknown, some .unknown, .halted)) ∧
    (raiseHalt granted.env .shortZone (.train 0) 0 0xFF (inMode .halted granted).work).posts.length = 1 := by decide +kernel

theorem test_witness_TrainsAdvanceAndClear :
    (headOne.track.trains[(0 : TrainId)]).ahead = [2] ∧ (headTwo.track.trains[(0 : TrainId)]).footprint = [0, 1, 2] ∧
    (headTwo.track.trains[(0 : TrainId)]).ride.map (·.cursor) = some 1 ∧
    ((tailEvent headTwo.env 1 headTwo.work).trains[(0 : TrainId)]).footprint = [1, 2] ∧
    (tailEvent headTwo.env 1 headTwo.work).zoneState 0 = some (.clearing 0 500) ∧
    (takeTail headTwo.env 0 1 headTwo.work).trains[(1 : TrainId)] = Train.gone := by decide +kernel

/-- The dispatch granted towards a PASS step, no onward claim formed. -/
def towardsPass : State :=
  let r : Route := { tour with slots := tour.slots.set 1 (some { zone := 2, action := .pass, opener := none }) }
  { granted with routes := granted.routes.set 0 r }

/-- The head event that starts the leg to a PASS step. -/
def leaving : Work :=
  match (towardsPass.track.trains[(0 : TrainId)]).authority with
  | g :: gs => takeHead towardsPass.env 0 1 g gs towardsPass.work
  | [] => towardsPass.work

theorem test_witness_TrainsAdvanceAndClear_start :
    ((leaving.trains[(0 : TrainId)]).state, (leaving.trains[(0 : TrainId)]).departure) = (.running, none) ∧
    (leaving.trains[(0 : TrainId)]).travel = some 3000 ∧ leaving.posts.map (·.note.name) = [.departed] ∧
    leaving.claims.map (·.zones) = [[3]] := by decide +kernel

theorem test_witness_StopSensorAndReady_stop :
    after (.stopSensorChange 0 true) granted = granted ∧
    after (.stopSensorChange 0 false) parked = parked ∧
    ((after (.stopSensorChange 3 false) parked).track.trains[(0 : TrainId)]).state = .standing ∧
    ((after (.stopSensorChange 0 false) granted).track.trains[(0 : TrainId)]).state = .running ∧
    (after (.stopSensorChange 4 true) parked).track = parked.track ∧
    ((after (.stopSensorChange 2 true) running).track.trains[(1 : TrainId)]).state = .standing := by decide +kernel

theorem test_witness_StopSensorAndReady_ready :
    after (.readyChange 0 true) atStation = atStation ∧ (after (.readyChange 1 true) atStation).track = atStation.track ∧
    (after (.readyChange 0 false) atStation).track = atStation.track ∧
    (dispatchPhase granted.track 0, dispatchPhase waiting.track 0) = (some (.cleared, 0), some (.waiting, 0)) ∧
    ((after (.readyChange 0 false) granted).track.trains[(0 : TrainId)]).state = .standing ∧
    noticesOf 0 (after (.readyChange 0 false) waiting) = [.dispatchAborted] := by decide +kernel

theorem test_witness_StopSensorAndReady_setting :
    dispatchPhase settingDispatch.track 0 = some (.setting, 0) ∧
    noticesOf 0 (after (.readyChange 0 false) settingDispatch) = [.dispatchAborted] ∧
    (after (.readyChange 0 false) settingDispatch).track.claims = [] := by decide +kernel

/-- T0 RUNNING with its tail in Z1 and its head at rest in the brake zone, at a PASS step whose next leg is granted. -/
def rolling : State :=
  let s := brakeStep .pass .running
  let r := { rider .running 1 2 with
    footprint := [1, 2], travel := some 1
    authority := [{ start := 2, zones := [3], started := false, reqs := [], target := 2, decision := none, origin := .auto
                    onward := false }] }
  let w := applyRelease s.env (((s.work.setZone 1 (.occupied 0)).setZone 3 (.reserved 0)).setTrain 0 r)
  { s with track := w.toTrack }

theorem test_witness_ComingToRest_released :
    rolling.track.hold 2 = some .released ∧
    (let r := (tailEvent rolling.env 2 rolling.work).trains[(0 : TrainId)]
     (r.state, r.footprint, r.departure, r.travel) = (.cleared, [2], some 4000, none)) := by decide +kernel

/-- The brake of Z0 with a supervision, and its feedback input. -/
def supervised (x : Supervision) (feedback : Bool) : State :=
  ({ operating with track := (operating.work.setSupervision 0 x).toTrack } : State).setInput (.feedback 0) feedback

theorem test_witness_HoldFeedback :
    after (.holdFeedbackChange 0 false) operating = operating ∧
    after (.holdFeedbackChange 0 true) (supervised (.awaiting 9) false) = supervised (.awaiting 9) true ∧
    after (.holdFeedbackChange 0 true) (supervised .confirmed false) = supervised .confirmed true ∧
    (after (.holdFeedbackChange 0 false) (supervised .confirmed true)).track.zoneState 0 = some (.fault .holdFailed) ∧
    after (.holdFeedbackChange 0 true) (supervised .disagree false) = supervised .confirmed true ∧
    after (.holdFeedbackChange 0 false) (supervised .disagree true) = supervised .disagree false ∧
    after (.holdConfirmExpiry 0) (supervised (.awaiting 0) true) = supervised .confirmed true ∧
    (after (.holdConfirmExpiry 0) (supervised (.awaiting 0) false)).track.mode = .halted ∧
    after (.holdConfirmExpiry 0) operating = operating := by decide +kernel

/-- SW1 in a state. -/
def switched (x : SwitchState) (k : Nat) : State :=
  { operating with track := (operating.work.modifySwitch 1 fun r => { r with state := x, attempts := k }).toTrack }

theorem test_witness_SwitchInputsAndMoves :
    after (.switchPositionChange 1 .straight true) operating = operating ∧
    (after (.switchPositionChange 1 .straight false) (switched .failed 3)).track.switchState 1 = some .failed ∧
    (after (.switchPositionChange 1 .straight false) operating).track.switchState 1 = some .unknown ∧
    (after (.switchPositionChange 1 .straight true) (operating.setInput (.position 1 .straight) false)).track.switchState 1 =
      some (.settled .straight) ∧
    (after (.switchPositionChange 1 .diverge true) (throwing.setInput (.position 1 .straight) false)).track.switchState 0 =
      throwing.track.switchState 0 ∧
    (after (.switchPositionChange 0 .diverge true) (throwing.setInput (.position 0 .straight) false)).track.switchState 0 =
      some (.settled .diverge) ∧
    (after (.moveArrival 0) throwing).track.switchState 0 = some (.settled .diverge) ∧
    after (.moveArrival 1) throwing = throwing ∧ after (.moveLimitExpiry 1) throwing = throwing ∧
    (after (.moveLimitExpiry 1) (switched (.moving .diverge 0 .none) 1)).track.switchState 1 =
      some (.moving .diverge 1000 .none) ∧
    (after (.moveLimitExpiry 1) (switched (.moving .diverge 0 .none) 2)).track.switchState 1 = some .failed := by decide +kernel

/-- T0 CLEARED in the brake zone, its leg over SW0 in its authority. -/
def overSwitch : State := heard (after (.proceed 0 0) atBrake)

theorem test_witness_SwitchInputsAndMoves_lost :
    (let w := losePosition overSwitch.env 0 overSwitch.work
     (w.mode, w.switchState 0, w.posts.map (·.note.name), (w.posts.head?.map (·.note.detail2))) =
       (.halted, some .unknown, [.switchLost, .mode], some 1)) ∧
    (let w := losePosition operating.env 0 operating.work
     (w.mode, w.posts.map (·.note.name), (w.posts.head?.map (·.note.detail2))) = (.operating, [.switchLost], some 0)) ∧
    (let s := (throwing.setInput (.position 0 .straight) false).setInput (.position 0 .diverge) true
     ((arrivals s.env 4 s.work).switchState 0, atTarget s.env s.track 0)) = (some (.settled .diverge), true) := by decide +kernel

/-- The brake zone runs its settle time. -/
def settling : State := withZoneState 2 (.clearing 0 0) operating

theorem test_witness_TimersAndSamples_timers :
    (after (.settleExpiry 2) settling).track.zoneState 2 = some .clear ∧ after (.settleExpiry 3) settling = settling ∧
    ((after (.dwellExpiry 0) atBrake).track.trains[(0 : TrainId)]).dwell = none ∧ after (.dwellExpiry 1) atBrake = atBrake ∧
    ((after (.departureWindowExpiry 0) granted).track.trains[(0 : TrainId)]).state = .standing ∧
    (granted.track.trains[(0 : TrainId)]).departure = some 4000 ∧ (granted.track.trains[(0 : TrainId)]).footprint = [0] ∧
    after (.departureWindowExpiry 1) granted = granted ∧
    (after (.travelLimitExpiry 0) headOne).track.mode = .halted ∧ after (.travelLimitExpiry 1) headOne = headOne := by decide +kernel

theorem test_witness_TimersAndSamples :
    noticesOf 0 (after (.claimWaitExpiry (.train 0)) waiting) = [.dispatchExpired] ∧
    (waitingClaim waiting.track (.train 0)).isSome = true ∧ (waitingClaim claimed.track (.port 2)).isSome = true ∧
    (after (.claimWaitExpiry (.port 2)) claimed).track.sections[(2 : PortId)] = .none ∧
    after (.claimWaitExpiry (.train 1)) waiting = waiting ∧
    ((after .occupancySample parked).track.zones[(3 : ZoneId)]).map (·.history) = some [true] ∧
    (after .occupancySample parked).track.zones[(31 : ZoneId)] = none := by decide +kernel

/-! ### The arbiter and the faults -/

theorem test_witness_GrantConditions :
    (waiting.track.claims.map (grantable waiting.env waiting.track 0)) = [false] ∧
    (waiting.track.claims.map (grantable waiting.env (withZoneState 2 .clear waiting).track 0)) = [true] ∧
    (claimed.track.claims.map (grantable claimed.env claimed.track 0)) = [false] ∧
    (let two := claimed.track.claims ++ claimed.track.claims
     ((two.getLast?.map fun c =>
       (raiseBypass 1 c { claimed.work with claims := two }).claims.map (·.bypass)) = some [1, 0])) := by decide +kernel

/-- A list of twelve claims. -/
def fullList : Work := { atStation.work with claims := List.replicate 12 (brakeClaim .waiting) }

theorem test_witness_ClaimsFormedAndDropped :
    ((formAtRest atStation.env 0 .auto none atStation.work).claims.length,
      ((formAtRest atStation.env 0 .auto none atStation.work).trains[(0 : TrainId)]).state) = (1, .claiming) ∧
    ((formAtRest parked.env 0 .auto none parked.work).posts.map (·.note.name)) = [.routeEnd] ∧
    formAtRest (inMode .halted atStation).env 0 .auto none (inMode .halted atStation).work = (inMode .halted atStation).work ∧
    (let w := arriveClaim (brakeClaim .waiting).body none fullList
     (w.claims.length, w.line.length, (dropClaims (fun c => decide (c.seq = 0)) { w with nextSeq := 1 }).claims)) = (12, 1, []) ∧
    (let w := { (arriveClaim (brakeClaim .waiting).body none fullList) with claims := fullList.claims.map fun c => { c with seq := 9 } }
     (dropClaims (fun c => decide (c.seq = 9)) w).claims.length) = 1 := by decide +kernel

/-- The brake zone's train with its claim SETTING: SW0 lies DIVERGE and moves to STRAIGHT for it. -/
def settingUp : State :=
  let s := (atBrake.setInput (.position 0 .straight) false).setInput (.position 0 .diverge) true
  after (.proceed 0 0) { s with track := (s.work.modifySwitch 0 fun r => { r with state := .settled .diverge }).toTrack }

theorem test_witness_LegsAndClaimsGivenBack :
    settingUp.track.claims.map (·.state) = [.setting [0]] ∧ settingUp.track.zoneState 3 = some (.reserved 0) ∧
    (settingUp.track.claims.map fun c =>
      let w := withdrawClaim c settingUp.work
      (w.zoneState 3, w.claims, (w.trains[(0 : TrainId)]).state, w.switchState 0)) =
      [(some .clear, [], .standing, some (.moving .straight 1000 .none))] ∧
    (settingUp.track.claims.map fun c =>
      let w := returnToWaiting c settingUp.work
      (w.zoneState 3, w.claims.map (·.state), w.switchState 0)) =
      [(some .clear, [.waiting], some (.moving .straight 1000 .none))] ∧
    (arriveFor 0 (.claim 0) settingUp.work).claims = [] ∧ (arriveFor 1 (.claim 0) settingUp.work).claims.length = 1 ∧
    arriveFor 0 (.claim 9) settingUp.work = settingUp.work ∧
    ((removeEntries 0 0 granted.work).zoneState 1, (removeEntries 0 0 granted.work).zoneState 2) = (some .clear, some .clear) := by
  decide +kernel

/-- In front of the claim of `settingUp` T1's, SETTING too and of the same number, for which SW1 moves. -/
def sharedNumber : Work :=
  let c : Claim := { brakeClaim (.setting [1]) with body := .leg { train := 1, origin := .auto, start := 3, zones := [0]
                                                                   reqs := [], decision := { target := 0, ops := [] } } }
  { settingUp.work with claims := c :: settingUp.track.claims }.modifySwitch 1
    fun r => { r with state := .moving .diverge 7 (.claim 0) }

theorem test_witness_shared_number :
    sharedNumber.claims.map (·.seq) = [0, 0] ∧ sharedNumber.claims.map (·.state) = [.setting [1], .setting [0]] ∧
    (arriveFor 0 (.claim 0) sharedNumber).claims.map (·.state) = [.setting [1]] ∧
    (arriveFor 0 (.claim 0) sharedNumber).switchState 1 = some (.moving .diverge 7 (.claim 0)) ∧
    (failMove 0 .straight (.claim 0) sharedNumber).claims.map (·.state) = [.setting [1], .waiting] ∧
    (failMove 1 .diverge (.claim 0) sharedNumber).claims.map (·.state) = [.waiting, .setting [0]] := by decide +kernel

/-- T0 dispatched to a PASS step at the brake: its leg is granted, and an onward claim formed. -/
def onwardGranted : State :=
  after (.dispatch 1 0) { atStation with routes := (brakeStep .pass .standing).routes }

theorem test_witness_LegGrant :
    ((onwardGranted.track.trains[(0 : TrainId)]).authority.map (·.onward)) = [true, false] ∧
    ((granted.track.trains[(0 : TrainId)]).authority.map (·.onward)) = [false] ∧
    noticesOf 0 (after (.dispatch 1 0) atStation) = [.dispatchGranted] ∧ (settingUp.track.switchState 0) = some (.moving .straight 1000 (.claim 0)) ∧
    settingUp.track.driveLines 0 = (true, false) := by decide +kernel

/-- CP0 waits for the zone that CP2 holds. -/
def yielding : State := heard (after (.requestSection 0 [3] none) handed)

theorem test_witness_SectionGrantEvaluationAndYield :
    (handed.track.trains[(1 : TrainId)]).sectionPort = some 2 ∧ (yard.track.switches[(0 : SwitchId)]).bind (·.sectionPort) = some 0 ∧
    noticesOf 2 (after (.requestSection 0 [3] none) (heard (after (.setMask 2 127) handed))) = [.yield] ∧
    handed.track.yields 2 = false ∧ yielding.track.yields 2 = true ∧ judgeYield yielding.work = yielding.work ∧
    (after (.cancelSection 0) yielding).track.yields 2 = false ∧
    (yielding.track.claims.map (grantable yielding.env yielding.track 0)) = [false] := by decide +kernel

/-- What a dispatch or a move in progress posts when its train is handed over or lost. -/
def abortsOf (w : Work) : List (NoticeName × Byte × List PortId) :=
  w.posts.map fun o => (o.note.name, o.note.detail1, o.named)

/-- The granted leg of a move. -/
def moving : Work :=
  granted.work.modifyTrain 0 fun r => { r with authority := r.authority.map fun g => { g with origin := .move 0 } }

theorem test_witness_abortPosts :
    abortsOf (makeManual 2 0 settingDispatch.work) = [(.dispatchAborted, 6, [0, 1])] ∧
    (makeManual 2 0 settingDispatch.work).claims = [] ∧
    abortsOf (makeManual 2 1 waiting.work) = [] ∧ (makeManual 2 1 waiting.work).claims = waiting.track.claims ∧
    abortsOf (loseTrain 0 granted.work) = [(.dispatchAborted, 8, [0, 1])] ∧
    abortsOf (loseTrain 0 moving) = [(.moveAborted, 8, [0, 0])] ∧
    abortsOf (faultZones .overdue [0] granted.work) = [(.dispatchAborted, 8, [0, 1])] ∧
    abortsOf (loseTrain 1 waiting.work) = [] := by decide +kernel

theorem test_witness_ReleaseEffects :
    (let v := applyRelease granted.env (granted.work.modifyTrain 0 fun r => { r with state := .claiming, departure := none })
     ((v.trains[(0 : TrainId)]).state, (v.trains[(0 : TrainId)]).departure) = (.cleared, some 4000)) ∧
    (granted.track.brake 0).map (·.supervision) = some (.awaiting 200) ∧
    applyRelease operating.env operating.work = operating.work ∧ (operating.track.zones[(1 : ZoneId)]).map (·.brake) = some none := by
  decide +kernel

theorem test_witness_FaultOutcomes :
    (faultZones .overdue [4] operating.work).zoneState 4 = some (.fault .overdue) ∧
    (faultZones .overdue [31] operating.work) = operating.work ∧ (faultZones .overdue [3] handed.work) = handed.work ∧
    (faultZones .overdue [0] granted.work).zoneState 0 = some (.fault .overdue) ∧
    (faultZones .overdue [0] granted.work).zoneState 2 = some .unknown ∧
    ((faultZones .overdue [1] granted.work).trains[(0 : TrainId)]).state = .lost ∧
    (granted.track.zoneState 0, granted.track.zoneState 1) = (some (.occupied 0), some (.reserved 0)) := by decide +kernel

theorem test_witness_TrackEventsFrame :
    (Instr.occupancySample.command = none ∧ (Instr.entrySensorChange 0 true).command = none) ∧
    (granted.layout = atStation.layout ∧ granted.time = atStation.time) ∧
    (granted.ports[(0 : PortId)]).replies = (atStation.ports[(0 : PortId)]).replies := by decide +kernel

/-! ### Invariants and bytes -/

theorem test_witness_Kept :
    runs (.dispatch 1 0) atStation = true ∧ granted.queuesBounded ∧ granted.track.listBounded := by
  unfold State.queuesBounded Port.bounded Track.listBounded; decide +kernel

/-- T0 CLEARED at the station, a command waiting. -/
def sending : State := { granted with pending := [.ping 3] }

theorem test_witness_BrakesAndDrivesStaySafe :
    sending.safe ∧ runs (.ping 3) granted = true ∧ sending.track.holdLine 0 = true ∧
      (∃ k, inputSeen (stopped true false).layout (stopped true false).inputs (.estop k) = true) := by
  have h : ∀ z, sending.track.hold z = (sending.track.hold z).map fun _ => wantedHold sending.track z := by decide +kernel
  have d : ∀ n : SwitchId, (sending.track.switches[n]).all (fun r => !r.driveStraight && !r.driveDiverge && !r.isMoving) = true := by
    decide +kernel
  refine ⟨⟨?_, ⟨fun n r hr => ?_, fun hm => ?_, by decide +kernel⟩, ?_, ?_⟩, by decide +kernel, by decide +kernel, 0, by decide +kernel⟩
  · rw [holdsFollow_iff]
    intro z x hx
    have hz := h z
    rw [hx, Option.map_some, Option.some.injEq] at hz
    rw [hz]; exact wantedHold_iff _ _
  · have hd := d n
    rw [hr] at hd
    simp only [Option.all_some, Bool.and_eq_true, Bool.not_eq_true'] at hd
    exact drivesAgree_still r hd.1.1 hd.1.2 hd.2
  · exact absurd hm (by decide +kernel)
  · unfold State.estopAgrees; decide +kernel
  · unfold State.modeAgrees; decide +kernel

theorem test_witness_NoTwoTrainsShareAZone : sending.trackAgrees ∧ (sending.track.trains[(0 : TrainId)]).ahead = [1, 2] := by
  have hc : sending.track.claims ++ sending.track.line = [] := by decide +kernel
  have hs : ∀ p : PortId, sending.track.sections[p] = .none := by decide +kernel
  refine ⟨⟨?_, ?_, fun c g hm => ?_, fun p x hx => ?_, by decide +kernel, ?_, fun h => ?_⟩, by decide +kernel⟩
  · unfold Track.zonesAgree; decide +kernel
  · unfold Train.listsAgree; decide +kernel
  · rw [hc] at hm; cases hm
  · rw [hs] at hx; cases hx
  · unfold State.modeAgrees; decide +kernel
  · exact absurd h (by decide +kernel)

theorem test_witness_CommandBytesReadBack :
    (Command.loadZone 31 (some stationFields)).wf = true ∧
    (commandBytes (.requestSection (List.replicate 28 255) (some 254))).length = 30 ∧
    decodeCommand 0x38 (commandBytes (.requestSection (List.replicate 28 255) (some 254))) =
      some (.requestSection (List.replicate 28 255) (some 254)) ∧
    commandBytes (.loadZone 31 (some stationFields)) = [31, 1, 0x83, 1, 15, 63, 255, 0, 1, 3, 1, 255] := by decide +kernel

end Sys2Proof.Tests
end

section
/-! SUPPORT. The machine after a cold start (R164): what it holds, and that it has every invariant. -/

namespace Sys2Proof.Machine

/-! ### The fields after a cold start -/

/-- A cold start clears the sampler of every input alike (R39). -/
theorem inputLine_cleared (x : Inputs) (i : InputId) : inputLine x.cleared i = (inputLine x i).cleared := by
  cases i with
  | position n q => cases q <;> exact vector_get_map _ _ n
  | entry z => exact vector_get_map _ _ z
  | stop z => exact vector_get_map _ _ z
  | feedback z => exact vector_get_map _ _ z
  | ready r => exact vector_get_map _ _ r
  | estop k => exact vector_get_map _ _ k

/-- All wires being low, a cold start leaves the sampler of a reset as it is. -/
theorem cleared_reset : Inputs.reset.cleared = Inputs.reset := by
  simp [Inputs.cleared, Inputs.reset, Line.cleared, Line.reset]

theorem initialRole (p : PortId) : Role.initial[p] = if p = 0 then .supervisor else .observer := by
  revert p; decide

theorem resetPort (p : PortId) : State.resetPorts[p] = Port.reset p := by revert p; decide

/-- No zone has a record after a cold start (R35). -/
theorem reset_zone (z : ZoneId) : Track.reset.zones[z] = none := vector_get_replicate none z
/-- No zone has a tracker after a cold start (R46). -/
theorem reset_tracker (z : ZoneId) : Track.reset.trackers[z] = none := vector_get_replicate none z
/-- Every train is ABSENT after a cold start (R74). -/
theorem reset_train (t : TrainId) : Track.reset.trains[t] = Train.gone := vector_get_replicate _ t
/-- No switch has a record after a cold start (R136). -/
theorem reset_switch (n : SwitchId) : Track.reset.switches[n] = none := vector_get_replicate none n
/-- No port has a section after a cold start (R148). -/
theorem reset_section (p : PortId) : Track.reset.sections[p] = .none := vector_get_replicate _ p
/-- No zone has a state after a cold start (R35). -/
theorem reset_zoneState (z : ZoneId) : Track.reset.zoneState z = none := by
  unfold Track.zoneState; rw [reset_zone]; rfl

/-! ### The invariants after a cold start -/

theorem reset_holdsFollow : Track.reset.holdsFollow := fun z _ _ hr _ =>
  nomatch (reset_zone z).symm.trans hr

theorem reset_queuesBounded : State.reset.queuesBounded := fun p => by
  show (State.resetPorts[p]).bounded
  rw [resetPort]
  exact ⟨Nat.zero_le _, Nat.zero_le _, Nat.zero_le _⟩

theorem reset_waitsForRoom : State.reset.waitsForRoom := fun p => .inl <| by
  show (State.resetPorts[p]).commands = []
  rw [resetPort]
  rfl

theorem reset_listBounded : Track.reset.listBounded := ⟨Nat.zero_le _, fun _ => rfl⟩

theorem reset_switchesSafe : State.reset.switchesSafe :=
  ⟨fun n _ hr => (nomatch (reset_switch n).symm.trans hr), fun _ n _ hr => (nomatch (reset_switch n).symm.trans hr),
   fun _ n => reset_switch n⟩

/-- After a cold start the mode is ESTOPPED and the clear time does not run, whatever the lines (R164). -/
theorem reset_estopAgrees : State.reset.estopAgrees :=
  ⟨fun _ _ => rfl, fun h => absurd rfl h, fun h => absurd rfl h⟩

theorem reset_modeAgrees : State.reset.modeAgrees := ⟨fun _ => .inr rfl, fun h => by cases h⟩

theorem reset_safe : State.reset.safe :=
  ⟨reset_holdsFollow, reset_switchesSafe, reset_estopAgrees, reset_modeAgrees⟩

/-- No zone has a state and no train a zone. -/
theorem reset_zonesAgree : Track.reset.zonesAgree := by
  constructor <;>
  · intro z t
    rw [reset_zoneState, reset_train]
    simp [Train.gone, Train.ahead]

theorem gone_listsAgree : Train.gone.listsAgree :=
  ⟨List.nodup_nil, List.nodup_nil, fun _ h => absurd h List.not_mem_nil, fun _ => ⟨rfl, rfl⟩, fun _ => rfl,
   fun h => by cases h⟩

theorem reset_trackAgrees : State.reset.trackAgrees := by
  refine ⟨reset_zonesAgree, fun t => ?_, fun c g hc => ?_, fun p x hx => ?_, fun g hg => ?_, reset_modeAgrees,
    fun _ => ⟨fun t => ?_, fun p x hx => ?_⟩⟩
  · exact (reset_train t).symm ▸ gone_listsAgree
  · exact absurd hc List.not_mem_nil
  · exact nomatch (reset_section p).symm.trans hx
  · exact absurd hg List.not_mem_nil
  · exact congrArg Train.state (reset_train t)
  · exact nomatch (reset_section p).symm.trans hx

end Sys2Proof.Machine

namespace Sys2Proof.Proofs
open Sys2Proof.Machine

/-- Settles O54: each invariant by its own lemma about the reset machine. -/
theorem resetHasTheInvariants : Obligations.ResetHasTheInvariants :=
  ⟨reset_holdsFollow, reset_queuesBounded, reset_waitsForRoom, reset_listBounded, reset_switchesSafe, reset_estopAgrees,
   reset_modeAgrees, reset_safe, reset_trackAgrees⟩

/-- Settles O5: a cold start answers `State.reset` with wires, waiting commands and counter kept, whose fields are read
off by the lemmas above. -/
theorem coldStart : Obligations.ColdStart := by
  refine ⟨fun s => ⟨_, rfl, fun z => vector_get_replicate _ z, fun n => vector_get_replicate _ n, fun p hp => ?_, rfl, rfl, rfl,
    rfl, rfl, fun r => vector_get_replicate _ r, fun i => ?_, rfl, rfl, fun z => ⟨reset_zone z, reset_tracker z⟩, fun t => ?_,
    rfl, rfl, rfl, reset_switch, reset_section, rfl, fun p => ?_⟩, ?_, fun _ => rfl⟩
  · exact (initialRole p).trans (if_neg hp)
  · rw [show inputLine (Machine.coldStart s).inputs i = (inputLine s.inputs i).cleared from inputLine_cleared s.inputs i]
    exact ⟨rfl, rfl⟩
  · exact congrArg Train.state (reset_train t)
  · rw [show (Machine.coldStart s).ports[p] = Port.reset p from resetPort p]
    exact ⟨initialRole p, rfl, rfl, rfl, rfl, rfl, rfl, rfl, rfl, rfl, rfl, rfl, rfl⟩
  · show Host.Outcome.next { State.reset with inputs := Inputs.reset.cleared } = _
    rw [cleared_reset]
    rfl

end Sys2Proof.Proofs
end

section
/-! SUPPORT. The load commands (R2, R5, R7, R8): their shared examination, and what each stores. -/

namespace Sys2Proof.Machine

/-! ### The examination that the load commands share -/

section
variable {i : Instr} {p : PortId} {c : Command} {s : State} {code : Byte} {l : Option Layout}

/-- A load row is refused with ROLE from another port than CP0. -/
theorem load_role (h : s.idlePort p) (hi : i.command = some (p, c)) (hc : BitVec.ofNat 8 (commandCode c) = code)
    (hl : perform p false c s = loadLayout p l s) (hp : p ≠ 0) : refusesWith i p code .role s := by
  refine idle_refuses h hi hc (hl.trans ?_)
  unfold loadLayout
  rw [loadRefusal_role s hp]

/-- A load row is refused with LOCKED while the layout is committed. -/
theorem load_locked (h : s.idlePort p) (hi : i.command = some (p, c)) (hc : BitVec.ofNat 8 (commandCode c) = code)
    (hl : perform p false c s = loadLayout p l s) (hp : p = 0) (hm : s.layout.committed = true) :
    refusesWith i p code .locked s := by
  refine idle_refuses h hi hc (hl.trans ?_)
  unfold loadLayout
  rw [loadRefusal_locked s hp hm]

/-- A load row with no layout to store is refused with ARGUMENT. -/
theorem load_argument (h : s.idlePort p) (hi : i.command = some (p, c)) (hc : BitVec.ofNat 8 (commandCode c) = code)
    (hl : perform p false c s = loadLayout p l s) (hs : s.loadable p) (hn : l = none) : refusesWith i p code .argument s := by
  refine idle_refuses h hi hc (hl.trans ?_)
  unfold loadLayout
  rw [loadRefusal_none s hs, hn]

/-- A load row with a layout to store stores it. -/
theorem load_stores {x : Layout} (h : s.idlePort p) (hi : i.command = some (p, c)) (hc : BitVec.ofNat 8 (commandCode c) = code)
    (hl : perform p false c s = loadLayout p l s) (hs : s.loadable p) (hx : l = some x) :
    exec i s = .next (replied p code (.done []) { s with layout := x }) := by
  refine idle_answers h hi hc (hl.trans ?_)
  unfold loadLayout
  rw [loadRefusal_none s hs, hx]
  rfl

end

/-! ### LOAD_ZONE (R2) -/

/-- A number in 0 to 3 is that of a READY input. -/
theorem readyArg_some {n : Nat} {r : ReadyId} : readyArg n = some r ↔ n = r.val := by
  constructor
  · intro h
    unfold readyArg at h; split at h
    · cases h; rfl
    · cases h
  · rintro rfl; exact readyArg_val r

/-- A number in 1 to 3 is that of a port other than CP0. -/
theorem masterPortArg_some {n : Nat} {p : PortId} : masterPortArg n = some p ↔ n = p.val ∧ p ≠ 0 := by
  unfold masterPortArg
  constructor
  · intro h
    split at h
    · next q hq =>
      split at h
      · cases h
      · next h0 => cases h; exact ⟨portArg_some hq, h0⟩
    · cases h
  · rintro ⟨rfl, h0⟩
    rw [portArg_val]
    exact if_neg h0

theorem masterPortArg_none {n : Nat} (h : n = 0 ∨ 4 ≤ n) : masterPortArg n = none := by
  rw [Option.eq_none_iff_forall_ne_some]
  intro p hp
  obtain ⟨rfl, h0⟩ := masterPortArg_some.1 hp
  have := p.isLt
  exact h0 (Fin.ext (by show p.val = 0; omega))

/-- The READY index of the stored record is the one given, present for a STATION zone alone. -/
theorem readyField_some (f : ZoneFields) (r : Option ReadyId) :
    readyField f = some r ↔ (f.kind = .station ↔ r ≠ none) ∧ f.ready = r.map (·.val) := by
  unfold readyField
  cases f.kind <;> cases f.ready <;> cases r <;> simp [readyArg_some]

/-- The owner of the stored record is the one given, a port other than CP0, and none for a RUN zone. -/
theorem ownerField_some (f : ZoneFields) (o : Option PortId) :
    ownerField f = some o ↔ (f.kind = .run → o = none) ∧ o ≠ some 0 ∧ f.owner = o.map (·.val) := by
  unfold ownerField
  cases f.kind <;> cases f.owner <;> cases o <;> simp [masterPortArg_some, and_comm]

/-- The fields for which some READY index can be stored. -/
theorem readyField_defined (f : ZoneFields) :
    (∃ r, readyField f = some r) ↔
      (f.kind = .station → ∃ i : ReadyId, f.ready = some i.val) ∧ (f.kind ≠ .station → f.ready = none) := by
  simp only [readyField_some]
  constructor
  · rintro ⟨r, hk, hr⟩
    cases r with
    | none => simp_all
    | some i => simp_all
  · rintro ⟨hs, hn⟩
    by_cases hk : f.kind = .station
    · obtain ⟨i, hi⟩ := hs hk
      exact ⟨some i, by simp [hk], hi⟩
    · exact ⟨none, by simp [hk], hn hk⟩

/-- The fields for which some owner can be stored. -/
theorem ownerField_defined (f : ZoneFields) :
    (∃ o, ownerField f = some o) ↔ (f.kind = .run → f.owner = none) ∧ ∀ n, f.owner = some n → 1 ≤ n ∧ n ≤ 3 := by
  simp only [ownerField_some]
  constructor
  · rintro ⟨o, hk, h0, ho⟩
    refine ⟨fun h => by rw [ho, hk h]; rfl, fun n hn => ?_⟩
    obtain ⟨p, rfl, rfl⟩ := Option.map_eq_some_iff.1 (ho.symm.trans hn)
    have hp : p ≠ 0 := fun h => h0 (h ▸ rfl)
    exact ⟨Nat.pos_of_ne_zero fun h => hp (Fin.ext h), Nat.le_of_lt_succ p.isLt⟩
  · rintro ⟨hk, ho⟩
    cases hf : f.owner with
    | none => exact ⟨none, fun _ => rfl, nofun, rfl⟩
    | some n =>
      obtain ⟨h1, h3⟩ := ho n hf
      have h0 : (⟨n, by omega⟩ : PortId) ≠ 0 := fun h => absurd (congrArg Fin.val h) (by show n ≠ 0; omega)
      exact ⟨some ⟨n, by omega⟩, fun h => (nomatch (hk h).symm.trans hf), fun h => h0 (Option.some.inj h), rfl⟩

/-- All kinds but RUN are stoppable (Table 1-1). -/
theorem stoppable_iff (k : ZoneKind) : stoppable k = true ↔ k ≠ .run := by cases k <;> decide

/-- The numbers that apply to the kind lie in the ranges of Table 1-1. -/
theorem zoneNumbersOk_iff (f : ZoneFields) :
    zoneNumbersOk f = true ↔ f.settle ≤ 15 ∧ (1 ≤ f.gap ∧ f.gap ≤ 63) ∧ (1 ≤ f.limit ∧ f.limit ≤ 255) ∧ f.travel ≤ 255 ∧
      (f.kind ≠ .run → 1 ≤ f.window ∧ f.window ≤ 255) ∧ (f.kind = .station → f.wait ≤ 255) := by
  unfold zoneNumbersOk
  cases f.kind <;> simp [inRange, stoppable, and_assoc]

/-- LOAD_ZONE has a record to store for the admissible fields alone (R2). -/
theorem zoneLayoutOf_none (f : ZoneFields) (h : ¬ zoneAdmissible f) : zoneLayoutOf f = none := by
  rw [Option.eq_none_iff_forall_ne_some]
  intro x hx
  unfold zoneLayoutOf at hx
  split at hx
  · next r o hr ho =>
    split at hx
    · next hn =>
      obtain ⟨hs, hg, hl, ht, hw, hd⟩ := (zoneNumbersOk_iff f).1 hn
      obtain ⟨hr1, hr2⟩ := (readyField_defined f).1 ⟨r, hr⟩
      obtain ⟨ho1, ho2⟩ := (ownerField_defined f).1 ⟨o, ho⟩
      exact h ⟨hs, hg, hl, ht, hw, hd, hr1, hr2, ho1, ho2⟩
    · cases hx
  · cases hx

/-- For admissible fields LOAD_ZONE stores the record without the fields that do not apply (R2). -/
theorem zoneLayoutOf_some (f : ZoneFields) (h : zoneAdmissible f) : ∃ x, zoneLayoutOf f = some x ∧ zoneStores f x := by
  obtain ⟨hs, hg, hl, ht, hw, hd, hr1, hr2, ho1, ho2⟩ := h
  obtain ⟨r, hr⟩ := (readyField_defined f).2 ⟨hr1, hr2⟩
  obtain ⟨o, ho⟩ := (ownerField_defined f).2 ⟨ho1, ho2⟩
  have hn := (zoneNumbersOk_iff f).2 ⟨hs, hg, hl, ht, hw, hd⟩
  unfold zoneLayoutOf
  rw [hr, ho]
  refine ⟨_, if_pos hn, rfl, rfl, rfl, rfl, rfl, rfl, rfl, ((readyField_some f r).1 hr).2.symm,
    ((ownerField_some f o).1 ho).2.2.symm, fun hk => ?_, fun hk => ?_, fun hk => if_pos hk, fun hk => if_neg hk⟩
  · have hb := (stoppable_iff f.kind).2 hk
    exact ⟨if_pos hb, if_pos hb⟩
  · rw [hk]; exact ⟨rfl, rfl⟩

/-- LOAD_ZONE of the kind NONE makes the slot undefined (R2). -/
theorem withZone_empty (l : Layout) (z : ZoneId) : withZone l z.val none = some { l with zones := l.zones.set z none } := by
  unfold withZone
  rw [zoneArg_val]

/-- LOAD_ZONE of another kind puts the record in the slot (R2). -/
theorem withZone_record (l : Layout) (z : ZoneId) {f : ZoneFields} {r : ZoneLayout} (h : zoneLayoutOf f = some r) :
    withZone l z.val (some f) = some { l with zones := l.zones.set z (some r) } := by
  unfold withZone
  rw [zoneArg_val]
  simp only [h, Option.map_some]

/-- LOAD_ZONE has nothing to store for a number out of range or fields that are not admissible (R2). -/
theorem withZone_none (l : Layout) {n : Nat} {f : Option ZoneFields} (h : 32 ≤ n ∨ ∃ x, f = some x ∧ ¬ zoneAdmissible x) :
    withZone l n f = none := by
  unfold withZone
  rcases h with hn | ⟨x, rfl, hx⟩
  · rw [zoneArg_none hn]
  · cases zoneArg n with
    | none => rfl
    | some z => simp only [zoneLayoutOf_none x hx, Option.map_none]

/-! ### LOAD_SWITCH, LOAD_PORT and LOAD_GLOBALS (R5, R7, R8) -/

/-- LOAD_SWITCH has no record to store where a number is out of its range (R5). -/
theorem switchLayoutOf_none (f : SwitchFields)
    (h : 32 ≤ f.root ∨ 32 ≤ f.straight ∨ 32 ≤ f.diverge ∨ f.moveLimit = 0 ∨ 256 ≤ f.moveLimit) : switchLayoutOf f = none := by
  rw [Option.eq_none_iff_forall_ne_some]
  intro x hx
  unfold switchLayoutOf at hx
  split at hx
  · next a b c ha hb hc =>
    split at hx
    · next hm =>
      have := (inRange_iff ..).1 hm
      have := zoneArg_some ha
      have := zoneArg_some hb
      have := zoneArg_some hc
      omega
    · cases hx
  · cases hx

/-- LOAD_SWITCH stores the record as it is given (R5). -/
theorem switchLayoutOf_some {f : SwitchFields} {a b c : ZoneId} (ha : f.root = a.val) (hb : f.straight = b.val)
    (hc : f.diverge = c.val) (h1 : 1 ≤ f.moveLimit) (h255 : f.moveLimit ≤ 255) :
    switchLayoutOf f = some { kind := f.kind, root := a, straight := b, diverge := c, moveLimit := f.moveLimit } := by
  unfold switchLayoutOf
  rw [ha, hb, hc, zoneArg_val, zoneArg_val, zoneArg_val]
  exact if_pos ((inRange_iff ..).2 ⟨h1, h255⟩)

/-- LOAD_SWITCH of the kind NONE makes the slot undefined (R5). -/
theorem withSwitch_empty (l : Layout) (k : SwitchId) :
    withSwitch l k.val none = some { l with switches := l.switches.set k none } := by
  unfold withSwitch
  rw [switchArg_val]

/-- LOAD_SWITCH of another kind puts the record in the slot (R5). -/
theorem withSwitch_record (l : Layout) (k : SwitchId) {f : SwitchFields} {r : SwitchLayout} (h : switchLayoutOf f = some r) :
    withSwitch l k.val (some f) = some { l with switches := l.switches.set k (some r) } := by
  unfold withSwitch
  rw [switchArg_val]
  simp only [h, Option.map_some]

/-- LOAD_SWITCH has nothing to store for a number out of its range (R5). -/
theorem withSwitch_none (l : Layout) {n : Nat} {f : Option SwitchFields} (h : 4 ≤ n ∨ ∃ x, f = some x ∧
    (32 ≤ x.root ∨ 32 ≤ x.straight ∨ 32 ≤ x.diverge ∨ x.moveLimit = 0 ∨ 256 ≤ x.moveLimit)) : withSwitch l n f = none := by
  unfold withSwitch
  rcases h with hn | ⟨x, rfl, hx⟩
  · rw [switchArg_none hn]
  · cases switchArg n with
    | none => rfl
    | some z => simp only [switchLayoutOf_none x hx, Option.map_none]

/-- The roles LOAD_PORT may give are all but SUPERVISOR, by their codes (R7, log 9). -/
theorem roleArg_code {x : Role} (h : x ≠ .supervisor) : roleArg (roleCode x) = some x := by
  cases x with
  | supervisor => exact absurd rfl h
  | station | transfer | observer => rfl

theorem roleArg_none {m : Nat} (h : m < 2 ∨ 5 ≤ m) : roleArg m = none := by
  unfold roleArg
  split
  · omega
  · omega
  · omega
  · rfl

/-- LOAD_PORT stores the role of a master's port (R7). -/
theorem withRole_some (l : Layout) {q : PortId} {x : Role} (hq : q ≠ 0) (hx : x ≠ .supervisor) :
    withRole l q.val (roleCode x) = some { l with roles := l.roles.set q x } := by
  unfold withRole
  rw [masterPortArg_some.2 ⟨rfl, hq⟩, roleArg_code hx]

/-- LOAD_PORT has nothing to store for a number that is no master's port or no role (R7). -/
theorem withRole_none (l : Layout) {n m : Nat} (h : n = 0 ∨ 4 ≤ n ∨ m < 2 ∨ 5 ≤ m) : withRole l n m = none := by
  have hc : (n = 0 ∨ 4 ≤ n) ∨ (m < 2 ∨ 5 ≤ m) := by omega
  unfold withRole
  rcases hc with hc | hc
  · rw [masterPortArg_none hc]
  · rw [roleArg_none hc]
    split
    · next e => cases e
    · rfl

/-- LOAD_GLOBALS stores the three settings (R8, Table 1-3). -/
theorem withGlobals_some (l : Layout) {b c k : Nat} (hb : b ≤ 7) (hc1 : 1 ≤ c) (hc : c ≤ 15) (hk : k ≤ 7) :
    withGlobals l b c k = some { l with bypassLimit := b, holdConfirm := c, lookBack := k } := by
  refine if_pos ?_
  simp only [Bool.and_eq_true, inRange_iff]
  omega

/-- LOAD_GLOBALS has nothing to store for a setting out of its range (R8). -/
theorem withGlobals_none (l : Layout) {b c k : Nat} (h : 8 ≤ b ∨ c = 0 ∨ 16 ≤ c ∨ 8 ≤ k) : withGlobals l b c k = none := by
  refine if_neg ?_
  simp only [Bool.and_eq_true, inRange_iff]
  omega

end Sys2Proof.Machine

namespace Sys2Proof.Proofs
open Sys2Proof.Machine

/-- Settles O15: the examination that the load commands share, then what `withZone` stores. -/
theorem loadZone : Obligations.LoadZone := fun s p n f h =>
  ⟨load_role h rfl rfl rfl, load_locked h rfl rfl rfl,
   fun hs hbad => load_argument h rfl rfl rfl hs (withZone_none _ hbad),
   fun z hs hn hf => load_stores h rfl rfl rfl hs (by rw [hn, hf]; exact withZone_empty _ z),
   fun z x hs hn hf hx =>
     have ⟨r, hr, hst⟩ := zoneLayoutOf_some x hx
     ⟨r, hst, load_stores h rfl rfl rfl hs (by rw [hn, hf]; exact withZone_record _ z hr)⟩⟩

/-- Settles O16: the examination that the load commands share, then what each of the three stores. -/
theorem loadSwitchPortGlobals : Obligations.LoadSwitchPortGlobals := by
  refine ⟨⟨fun s p n f h => ⟨load_role h rfl rfl rfl, load_locked h rfl rfl rfl,
      fun hs hbad => load_argument h rfl rfl rfl hs (withSwitch_none _ hbad), fun k hs hn hf => ?_,
      fun k x a b c hs hn hf ha hb hc h1 h255 => ?_⟩,
    fun s p n m h => ⟨load_role h rfl rfl rfl, load_locked h rfl rfl rfl,
      fun hs hbad => load_argument h rfl rfl rfl hs (withRole_none _ hbad), fun q x hs hq hn hx hm => ?_⟩⟩,
    fun s p b c l h => ⟨load_role h rfl rfl rfl, load_locked h rfl rfl rfl,
      fun hs hbad => load_argument h rfl rfl rfl hs (withGlobals_none _ hbad),
      fun hs hb hc1 hc hl => load_stores h rfl rfl rfl hs (withGlobals_some _ hb hc1 hc hl)⟩⟩
  · exact load_stores h rfl rfl rfl hs (by rw [hn, hf]; exact withSwitch_empty _ k)
  · exact load_stores h rfl rfl rfl hs
      (by rw [hn, hf]; exact withSwitch_record _ k (switchLayoutOf_some ha hb hc h1 h255))
  · exact load_stores h rfl rfl rfl hs (by rw [hn, hm]; exact withRole_some _ hq hx)

end Sys2Proof.Proofs
end

section
/-! SUPPORT. Which trains lock a switch (R127), the conditions of ASSERT_ZONE (R25), and what events and orders on the track
leave as it was. -/

namespace Sys2Proof.Machine

/-! ### Locked switches (R6, R127) -/

/-- The passages over a switch, by its kind (R6). -/
theorem mem_passages (x : SwitchLayout) (a b : ZoneId) :
    (a, b) ∈ passages x ↔ (x.kind = .diverge ∧ a = x.root ∧ (b = x.straight ∨ b = x.diverge)) ∨
      (x.kind = .merge ∧ b = x.root ∧ (a = x.straight ∨ a = x.diverge)) := by
  unfold passages
  cases x.kind with
  | diverge => simp; tauto
  | merge => simp; tauto

/-- A train locks the switch of a record (R127). -/
theorem locks_iff (x : SwitchLayout) (r : Train) :
    locks x r = true ↔ ∃ a b : ZoneId, (a, b) ∈ passages x ∧
      ((a ∈ r.footprint ∧ b ∈ r.footprint) ∨ ∃ g ∈ r.authority, b ∈ g.zones) := by
  simp [locks, Train.ahead, List.any_eq_true]

/-- Whether a switch is locked depends on its layout record and the trains alone (R127). -/
theorem isLocked_iff (e : Env) (w : Track) (n : SwitchId) :
    isLocked e w n = true ↔ ∃ t : TrainId, e.layout.lockedBy n (w.trains[t]) := by
  have hnil : isLocked e w n = true ↔ lockingTrains e w n ≠ [] := by
    unfold isLocked
    cases lockingTrains e w n with
    | nil => simp
    | cons t ts => simp
  rw [hnil]
  unfold lockingTrains Layout.lockedBy
  cases e.layout.switches[n] with
  | none => simp
  | some x =>
    simp only [trainIds, ne_eq, List.filter_eq_nil_iff, List.mem_finRange, forall_const, not_forall, not_not, locks_iff,
      mem_passages, Option.some.injEq, exists_eq_left']

/-! ### ASSERT_ZONE and RESET_SWITCH (R25, R132) -/

/-- A number names no defined zone. -/
theorem definedZoneArg_none (l : Layout) {n : Nat} (h : ∀ z : ZoneId, n = z.val → l.zones[z] = none) :
    definedZoneArg l n = none := by
  unfold definedZoneArg
  cases hz : zoneArg n with
  | none => rfl
  | some z =>
    have hd : ¬ l.defines z = true := fun hd => (defines_iff l z).1 hd (h z (zoneArg_some hz))
    exact if_neg hd

/-- A number names a defined zone. -/
theorem definedZoneArg_some (l : Layout) {z : ZoneId} (h : l.zones[z] ≠ none) : definedZoneArg l z.val = some z := by
  unfold definedZoneArg
  rw [zoneArg_val]
  exact if_pos ((defines_iff l z).2 h)

/-- A number names no switch with a record. -/
theorem definedSwitchArg_none (w : Track) {n : Nat} (h : ∀ k : SwitchId, n = k.val → w.switches[k] = none) :
    definedSwitchArg w n = none := by
  unfold definedSwitchArg
  cases hk : switchArg n with
  | none => rfl
  | some k =>
    show (w.switches[k]).map _ = none
    rw [h k (switchArg_some hk)]
    rfl

/-- A number names a switch with a record. -/
theorem definedSwitchArg_some (w : Track) {k : SwitchId} {r : Switch} (h : w.switches[k] = some r) :
    definedSwitchArg w k.val = some (k, r) := by
  unfold definedSwitchArg
  rw [switchArg_val]
  show (w.switches[k]).map _ = _
  rw [h]
  rfl

theorem doubtful_iff (x : Option ZoneState) : doubtful x = true ↔ x = some .unknown ∨ ∃ k, x = some (.fault k) := by
  cases x with
  | none => simp [doubtful]
  | some x => cases x <;> simp [doubtful]

/-- A stop sensor counts as active at a stoppable zone alone. -/
theorem stopActive_iff (e : Env) (z : ZoneId) :
    stopActive e z = true ↔ e.layout.stoppableZone z ∧ inputActive e.layout e.inputs (.stop z) = true := by
  rw [← isStop_iff]
  exact Bool.and_eq_true_iff

theorem trackerBusy_false (w : Track) (z : ZoneId) :
    trackerBusy w z = false ↔
      (∀ q l g, w.trackers[z] ≠ some (.passing q l g)) ∧ ∀ g, w.trackers[z] ≠ some (.stuck g) := by
  unfold trackerBusy
  cases w.trackers[z] with
  | none => simp
  | some x => cases x <;> simp

/-- The STATE conditions of ASSERT_ZONE (R25). -/
theorem assertable_iff (e : Env) (w : Track) (z : ZoneId) :
    assertable e w z = true ↔ (w.zoneState z = some .unknown ∨ ∃ k, w.zoneState z = some (.fault k)) ∧
      ¬ (e.layout.stoppableZone z ∧ inputActive e.layout e.inputs (.stop z) = true) ∧
      (∀ q l g, w.trackers[z] ≠ some (.passing q l g)) ∧ ∀ g, w.trackers[z] ≠ some (.stuck g) := by
  rw [← doubtful_iff, ← stopActive_iff, ← trackerBusy_false]
  simp [assertable, and_assoc]

/-! ### What events leave as it was -/

/-- Stores, time, waiting commands and free choice counter as they were, and every port but in what notices change. -/
def keepsStores (s t : State) : Prop :=
  t.layout = s.layout ∧ t.routes = s.routes ∧ t.time = s.time ∧ t.choices = s.choices ∧ t.pending = s.pending ∧
  ∀ p : PortId, ∃ n m o, t.ports[p] = { s.ports[p] with notices := n, summary := m, overflow := o }

theorem sameButTrack.keepsStores {s t : State} (h : sameButTrack s t) : keepsStores s t := by
  obtain ⟨hl, hr, _, ht, hc, hp, _, hports⟩ := h
  exact ⟨hl, hr, ht, hc, hp, hports⟩

theorem sameButTrack_refl (s : State) : sameButTrack s s := ⟨rfl, rfl, rfl, rfl, rfl, rfl, rfl, fun _ => ⟨_, _, _, rfl⟩⟩

/-- An event taken in a state that differs in inputs and sample boundary alone. -/
theorem run_keepsStores {s u : State} (f : Env → Work → Work) (h : { u with inputs := s.inputs, sampleDue := s.sampleDue } = s) :
    keepsStores s (u.run f) := by
  rw [← h]
  exact (run_sameButTrack u f).keepsStores

/-- The change of an input leaves the stores alone, whatever its owner does (R40). -/
theorem changeInput_keepsStores (i : InputId) (a : Bool) (f : Env → Work → Work) (s : State) :
    keepsStores s (changeInput i a f s) := by
  unfold changeInput
  split
  · exact ⟨rfl, rfl, rfl, rfl, rfl, fun _ => ⟨_, _, _, rfl⟩⟩
  · exact run_keepsStores f rfl

/-- The arrival of a move leaves the stores alone (R129). -/
theorem moveArrives_keepsStores (n : SwitchId) (s : State) : keepsStores s (moveArrives n s) := by
  unfold moveArrives
  split
  · exact run_keepsStores _ rfl
  · exact (sameButTrack_refl s).keepsStores

/-! ### What orders leave as it was -/

section
variable (s : State) (p : PortId)

theorem tryMode_same (m : Mode) : sameButTrack s (tryMode m s).1 := by
  unfold tryMode
  cases m with
  | operating =>
    dsimp only
    split
    · exact sameButTrack_refl s
    · exact run_sameButTrack s _
  | standby =>
    dsimp only
    split
    · exact sameButTrack_refl s
    · exact run_sameButTrack s _
  | halted => exact run_sameButTrack s _
  | unconfigured => exact sameButTrack_refl s
  | estopped => exact sameButTrack_refl s

theorem performSetMode_same (n : Nat) : sameButTrack s (performSetMode p n s).1 := by
  unfold performSetMode
  split
  · exact sameButTrack_refl s
  · split
    · exact sameButTrack_refl s
    · split
      · exact sameButTrack_refl s
      · split
        · exact sameButTrack_refl s
        · exact tryMode_same s _

theorem tryPlace_same (t : TrainId) (z : ZoneId) (g : Nat) (o : RouteOption) : sameButTrack s (tryPlace t z g o s).1 := by
  unfold tryPlace
  split
  · exact sameButTrack_refl s
  · split
    · exact sameButTrack_refl s
    · exact run_sameButTrack s _

theorem performPlaceTrain_same (n z g : Nat) (o : RouteOption) : sameButTrack s (performPlaceTrain p n z g o s).1 := by
  unfold performPlaceTrain
  split
  · exact sameButTrack_refl s
  · split
    · exact tryPlace_same s _ _ _ _
    · exact sameButTrack_refl s

theorem tryAssign_same (t : TrainId) (r : RouteId) (m : Nat) : sameButTrack s (tryAssign t r m s).1 := by
  unfold tryAssign
  split
  · exact sameButTrack_refl s
  · split
    · exact sameButTrack_refl s
    · exact run_sameButTrack s _

theorem performAssignRoute_same (n r m : Nat) : sameButTrack s (performAssignRoute p n r m s).1 := by
  unfold performAssignRoute
  split
  · exact sameButTrack_refl s
  · split
    · exact tryAssign_same s _ _ _
    · exact sameButTrack_refl s

theorem tryRetire_same (t : TrainId) (d : Disposition) : sameButTrack s (tryRetire t d s).1 := by
  unfold tryRetire
  split
  · exact run_sameButTrack s _
  · exact run_sameButTrack s _
  · exact run_sameButTrack s _
  · exact run_sameButTrack s _
  · exact sameButTrack_refl s

theorem performRetireTrain_same (n d : Nat) : sameButTrack s (performRetireTrain p n d s).1 := by
  unfold performRetireTrain
  split
  · exact sameButTrack_refl s
  · split
    · exact tryRetire_same s _ _
    · exact sameButTrack_refl s

theorem performAssertZone_same (n d : Nat) : sameButTrack s (performAssertZone p n d s).1 := by
  unfold performAssertZone
  split
  · exact sameButTrack_refl s
  · split
    · exact sameButTrack_refl s
    · split
      · exact sameButTrack_refl s
      · split
        · exact run_sameButTrack s _
        · exact sameButTrack_refl s

theorem performProceed_same (n : Nat) : sameButTrack s (performProceed p n s).1 := by
  unfold performProceed
  split
  · exact sameButTrack_refl s
  · split
    · exact sameButTrack_refl s
    · split
      · exact sameButTrack_refl s
      · split
        · exact run_sameButTrack s _
        · exact sameButTrack_refl s

theorem performBreakLoop_same (n : Nat) : sameButTrack s (performBreakLoop p n s).1 := by
  unfold performBreakLoop
  split
  · exact sameButTrack_refl s
  · split
    · exact sameButTrack_refl s
    · split
      · exact sameButTrack_refl s
      · exact run_sameButTrack s _

theorem performResetSwitch_same (n : Nat) : sameButTrack s (performResetSwitch p n s).1 := by
  unfold performResetSwitch
  split
  · exact sameButTrack_refl s
  · split
    · exact sameButTrack_refl s
    · split
      · exact sameButTrack_refl s
      · split
        · exact sameButTrack_refl s
        · exact run_sameButTrack s _

theorem orderLeg_same (t : TrainId) (o : Origin) (x : Option Nat) : sameButTrack s (orderLeg t o x s).1 := by
  unfold orderLeg
  dsimp only
  split
  · exact sameButTrack_refl s
  · split
    · exact put_sameButTrack s _
    · exact put_sameButTrack s _
    · exact sameButTrack_refl s

theorem tryDispatch_same (mark : Bool) (z : ZoneId) : sameButTrack s (tryDispatch p mark z s).1 := by
  unfold tryDispatch
  split
  · exact sameButTrack_refl s
  · split
    · exact sameButTrack_refl s
    · split
      · exact sameButTrack_refl s
      · split
        · exact orderLeg_same s _ _ _
        · exact sameButTrack_refl s

theorem performDispatch_same (mark : Bool) (n : Nat) : sameButTrack s (performDispatch p mark n s).1 := by
  unfold performDispatch
  split
  · exact sameButTrack_refl s
  · split
    · exact sameButTrack_refl s
    · split
      · exact tryDispatch_same s p mark _
      · exact sameButTrack_refl s

theorem tryCancel_same (z : ZoneId) : sameButTrack s (tryCancel z s).1 := by
  unfold tryCancel
  split
  · exact run_sameButTrack s _
  · exact sameButTrack_refl s
  · exact sameButTrack_refl s
  · exact sameButTrack_refl s

theorem performCancelDispatch_same (n : Nat) : sameButTrack s (performCancelDispatch p n s).1 := by
  unfold performCancelDispatch
  split
  · exact sameButTrack_refl s
  · split
    · exact sameButTrack_refl s
    · split
      · exact tryCancel_same s _
      · exact sameButTrack_refl s

theorem tryMove_same (mark : Bool) (z : ZoneId) : sameButTrack s (tryMove p mark z s).1 := by
  unfold tryMove
  split
  · exact sameButTrack_refl s
  · split
    · exact sameButTrack_refl s
    · split
      · exact sameButTrack_refl s
      · exact orderLeg_same s _ _ _

theorem performMove_same (mark : Bool) (n : Nat) : sameButTrack s (performMove p mark n s).1 := by
  unfold performMove
  split
  · exact sameButTrack_refl s
  · split
    · exact sameButTrack_refl s
    · split
      · exact tryMove_same s p mark _
      · exact sameButTrack_refl s

theorem tryRequest_same (mark : Bool) (zs : List Nat) (x : Option Nat) : sameButTrack s (tryRequest p mark zs x s).1 := by
  unfold tryRequest
  split
  · split
    · exact sameButTrack_refl s
    · split
      · exact sameButTrack_refl s
      · exact run_sameButTrack s _
  · exact sameButTrack_refl s

theorem performRequestSection_same (mark : Bool) (zs : List Nat) (x : Option Nat) :
    sameButTrack s (performRequestSection p mark zs x s).1 := by
  unfold performRequestSection
  split
  · exact sameButTrack_refl s
  · split
    · exact sameButTrack_refl s
    · exact tryRequest_same s p mark zs x

theorem performCancelSection_same : sameButTrack s (performCancelSection p s).1 := by
  unfold performCancelSection
  split
  · exact sameButTrack_refl s
  · split
    · exact run_sameButTrack s _
    · exact sameButTrack_refl s
    · exact sameButTrack_refl s

theorem performReturnSection_same (ds : List (Nat × Declared)) : sameButTrack s (performReturnSection p ds s).1 := by
  unfold performReturnSection
  split
  · exact sameButTrack_refl s
  · split
    · exact sameButTrack_refl s
    · split
      · exact sameButTrack_refl s
      · exact run_sameButTrack s _

theorem trySetHold_same (z : ZoneId) (x : Hold) : sameButTrack s (trySetHold p z x s).1 := by
  unfold trySetHold
  split
  · split
    · exact sameButTrack_refl s
    · split
      · exact sameButTrack_refl s
      · exact run_sameButTrack s _
  · exact sameButTrack_refl s

theorem performSetHold_same (n r : Nat) : sameButTrack s (performSetHold p n r s).1 := by
  unfold performSetHold
  split
  · exact sameButTrack_refl s
  · split
    · exact trySetHold_same s p _ _
    · exact sameButTrack_refl s

theorem tryMoveSwitch_same (n : SwitchId) (q : Position) : sameButTrack s (tryMoveSwitch p n q s).1 := by
  unfold tryMoveSwitch
  split
  · exact sameButTrack_refl s
  · split
    · exact sameButTrack_refl s
    · split
      · exact sameButTrack_refl s
      · split
        · exact sameButTrack_refl s
        · split
          · exact sameButTrack_refl s
          · exact run_sameButTrack s _

theorem performMoveSwitch_same (n q : Nat) : sameButTrack s (performMoveSwitch p n q s).1 := by
  unfold performMoveSwitch
  split
  · exact sameButTrack_refl s
  · split
    · exact tryMoveSwitch_same s p _ _
    · exact sameButTrack_refl s

end

end Sys2Proof.Machine

namespace Sys2Proof.Proofs
open Sys2Proof.Machine

/-- Settles O29: the examination of each order, then `assertable_iff`, and `isLocked_iff` for the lock. -/
theorem switchAndZoneOrders : Obligations.SwitchAndZoneOrders := by
  refine ⟨⟨fun s p n d h => ⟨fun hp => ?_, fun hp hc => ?_, fun hs hbad => ?_, fun z hs hn hz hd => ⟨fun hfit => ?_, fun hfit => ?_⟩⟩,
    fun s p n h => ⟨fun hp => ?_, fun hp hc => ?_, fun hs hbad => ?_, fun k r hs hn hr => ⟨fun hm => ?_, fun hm hl => ?_,
      fun hm hl ho => ?_⟩⟩⟩, isLocked_iff⟩
  · refine idle_refuses h rfl rfl ?_
    simp only [perform, performAssertZone, orderRefusal_role s hp]
  · refine idle_refuses h rfl rfl ?_
    simp only [perform, performAssertZone, orderRefusal_mode s hp hc]
  · refine idle_refuses h rfl rfl ?_
    simp only [perform, performAssertZone, orderRefusal_none s hs]
    rcases hbad with hz | hd
    · rw [definedZoneArg_none _ hz]
    · split
      · rfl
      · exact if_pos hd
  · refine idle_refuses h rfl rfl ?_
    have ha : ¬ assertable s.env s.track z = true := fun ha => hfit ((assertable_iff ..).1 ha)
    simp only [perform, performAssertZone, orderRefusal_none s hs, hn, definedZoneArg_some _ hz, hd]
    exact (if_neg (fun h => h rfl)).trans (if_neg ha)
  · refine idle_answers h rfl rfl ?_
    have ha : assertable s.env s.track z = true := (assertable_iff ..).2 hfit
    simp only [perform, performAssertZone, orderRefusal_none s hs, hn, definedZoneArg_some _ hz, hd]
    exact (if_neg (fun h => h rfl)).trans (if_pos ha)
  · refine idle_refuses h rfl rfl ?_
    simp only [perform, performResetSwitch, orderRefusal_role s hp]
  · refine idle_refuses h rfl rfl ?_
    simp only [perform, performResetSwitch, orderRefusal_mode s hp hc]
  · refine idle_refuses h rfl rfl ?_
    simp only [perform, performResetSwitch, orderRefusal_none s hs, definedSwitchArg_none _ hbad]
  · refine idle_refuses h rfl rfl ?_
    simp only [perform, performResetSwitch, orderRefusal_none s hs, hn, definedSwitchArg_some _ hr, if_pos hm]
  · refine idle_refuses h rfl rfl ?_
    have hlo : (isLocked s.env s.track k || r.sectionPort.isSome) = true := by
      rw [Bool.or_eq_true, Option.isSome_iff_ne_none]; exact hl
    simp only [perform, performResetSwitch, orderRefusal_none s hs, hn, definedSwitchArg_some _ hr, hm, hlo, if_true]
    rfl
  · refine idle_answers h rfl rfl ?_
    simp only [perform, performResetSwitch, orderRefusal_none s hs, hn, definedSwitchArg_some _ hr, hm, hl, ho]
    rfl

/-- Settles O53: an event runs on the track of a state that differs in its inputs at most, and an order runs on the track or
is refused. -/
theorem trackEventsFrame : Obligations.TrackEventsFrame := by
  refine ⟨fun s i hi hcold hwarm hcommand hread hrepeat hlease => ?_, fun s p mark c hc => ?_⟩
  · have hrun := fun f => run_keepsStores (s := s) (u := s) f rfl
    cases i with
    | coldStart => exact absurd rfl hcold
    | warmStart => exact absurd rfl hwarm
    | commandFrame p b => exact absurd rfl (hcommand p b)
    | readFrame p n => exact absurd rfl (hread p n)
    | repeatFrame p n => exact absurd rfl (hrepeat p n)
    | leaseExpiry p => exact absurd rfl (hlease p)
    | entrySensorChange z a => exact ⟨_, rfl, changeInput_keepsStores _ _ _ s⟩
    | stopSensorChange z a => exact ⟨_, rfl, changeInput_keepsStores _ _ _ s⟩
    | holdFeedbackChange z a => exact ⟨_, rfl, changeInput_keepsStores _ _ _ s⟩
    | readyChange r a => exact ⟨_, rfl, changeInput_keepsStores _ _ _ s⟩
    | estopLineChange k a => exact ⟨_, rfl, changeInput_keepsStores _ _ _ s⟩
    | switchPositionChange n q a => exact ⟨_, rfl, changeInput_keepsStores _ _ _ s⟩
    | moveArrival n => exact ⟨_, rfl, moveArrives_keepsStores n s⟩
    | passageGapExpiry z => exact ⟨_, rfl, hrun _⟩
    | passageLimitExpiry z => exact ⟨_, rfl, hrun _⟩
    | holdConfirmExpiry z => exact ⟨_, rfl, hrun _⟩
    | estopClearExpiry => exact ⟨_, rfl, hrun _⟩
    | moveLimitExpiry n => exact ⟨_, rfl, hrun _⟩
    | settleExpiry z => exact ⟨_, rfl, hrun _⟩
    | dwellExpiry t => exact ⟨_, rfl, hrun _⟩
    | departureWindowExpiry t => exact ⟨_, rfl, hrun _⟩
    | travelLimitExpiry t => exact ⟨_, rfl, hrun _⟩
    | claimWaitExpiry k => exact ⟨_, rfl, hrun _⟩
    | occupancySample => exact ⟨_, rfl, run_keepsStores _ rfl⟩
    | _ => cases hi
  · cases c with
    | setMode m => exact performSetMode_same s p m
    | placeTrain t z g o => exact performPlaceTrain_same s p t z g o
    | assignRoute t r k => exact performAssignRoute_same s p t r k
    | retireTrain t d => exact performRetireTrain_same s p t d
    | assertZone z d => exact performAssertZone_same s p z d
    | proceed t => exact performProceed_same s p t
    | breakLoop t => exact performBreakLoop_same s p t
    | resetSwitch n => exact performResetSwitch_same s p n
    | dispatch z => exact performDispatch_same s p mark z
    | cancelDispatch z => exact performCancelDispatch_same s p z
    | move z => exact performMove_same s p mark z
    | requestSection zs x => exact performRequestSection_same s p mark zs x
    | cancelSection => exact performCancelSection_same s p
    | returnSection ds => exact performReturnSection_same s p ds
    | setHold z r => exact performSetHold_same s p z r
    | moveSwitch n q => exact performMoveSwitch_same s p n q
    | _ => cases hc

end Sys2Proof.Proofs
end

section
/-! SUPPORT. COMMIT and UNCOMMIT (R9, R13, R15): their examination, the records they make, and their MODE notice (R150). -/

namespace Sys2Proof.Machine

/-! ### The MODE notice (R150, R172, R178) -/

/-- Every port is among the ports. -/
theorem mem_portIds (p : PortId) : p ∈ portIds := List.mem_finRange p

/-- Every train is among the trains. -/
theorem mem_trainIds (t : TrainId) : t ∈ trainIds := List.mem_finRange t

/-- Every switch is among the switches. -/
theorem mem_switchIds (n : SwitchId) : n ∈ switchIds := List.mem_finRange n

/-- A notice of class MODE named to every port joins the queue of each whose mask admits it and whose queue has room. -/
theorem deliverTo_mode_notices (l : Layout) (t : BitVec 32) (p : PortId) (n : Note) (r : Port) (h : noticeClass n.name = .mode) :
    (deliverTo l t p [{ note := n, named := portIds }] r).notices =
      r.notices ++ if r.mask.getLsbD 5 && decide (r.notices.length < 8) then [{ note := n, time := t }] else [] := by
  have hr : reaches l p r { note := n, named := portIds } = r.mask.getLsbD 5 := by
    unfold reaches
    rw [h, decide_eq_true (mem_portIds p), Bool.true_or, Bool.true_and]
    rfl
  show (if reaches l p r _ then r.queueNotice { note := n, time := t } else r).notices = _
  rw [hr]
  cases r.mask.getLsbD 5 with
  | false => exact (List.append_nil _).symm
  | true =>
    unfold Port.queueNotice
    by_cases hl : r.notices.length < 8
    · simp [Config.noticeQueueSize, hl]
    · simp [Config.noticeQueueSize, hl]

/-- Notices change neither role, mask nor replies of a port. -/
theorem deliverTo_role (l : Layout) (t : BitVec 32) (p : PortId) (os : List Post) (r : Port) :
    (deliverTo l t p os r).role = r.role ∧ (deliverTo l t p os r).mask = r.mask ∧
      (deliverTo l t p os r).replies = r.replies := by
  obtain ⟨n, m, o, e⟩ := deliverTo_eq l t p os r
  rw [e]
  exact ⟨rfl, rfl, rfl⟩

/-- A port's record after its role has been taken. -/
theorem takeRoles_port (s : State) (rs : Vector Role 4) (p : PortId) :
    (s.takeRoles rs).ports[p] = { s.ports[p] with role := rs[p] } := vector_get_ofFn _ p

/-- A port's record after an event. -/
theorem run_port (s : State) (f : Env → Work → Work) (p : PortId) :
    (s.run f).ports[p] = deliverTo s.layout s.stamp p (f s.env s.work).posts s.ports[p] := deliver_port _ _ p

/-! ### COMMIT (R13) -/

/-- The hold of a newly committed stoppable zone is HELD with the full confirm time (R35). -/
theorem freshZone_eq (l : Layout) (r : ZoneLayout) :
    freshZone l r = { state := .unknown, history := []
                      brake := if r.kind = .run then none
                        else some { hold := .held, supervision := .awaiting (l.holdConfirm * 50) } } := by
  unfold freshZone confirmMs stoppable
  cases r.kind <;> rfl

/-- The note of a mode change by a commit, with the mode left. -/
def commitNote (left : Mode) : Note :=
  { name := .mode, subject := .mode .standby, detail1 := byteOf (modeCode left * 32 + 1), detail2 := 0xFF }

theorem commitTrack_posts (e : Env) (s : State) :
    (commitTrack e s.work).posts = [{ note := commitNote s.track.mode, named := portIds }] := rfl

/-- The record of a port after a commit: its stored role, and the MODE notice where it reaches it. -/
theorem commitState_port (s : State) (q : PortId) :
    (commitState s).ports[q] =
      { deliverTo (committedLayout s.layout) s.stamp q [{ note := commitNote s.track.mode, named := portIds }] s.ports[q] with
        role := s.layout.roles[q] } := by
  unfold commitState
  rw [takeRoles_port, run_port]
  rfl

/-- The zone records after a commit (R35). -/
theorem commitState_zone (s : State) (z : ZoneId) :
    (commitState s).track.zones[z] = (s.layout.zones[z]).map (freshZone s.layout) := vector_get_map _ _ z

/-- The trackers after a commit (R46). -/
theorem commitState_tracker (s : State) (z : ZoneId) :
    (commitState s).track.trackers[z] = (s.layout.zones[z]).map fun _ => freshTracker (commitState s).env z := vector_get_ofFn _ z

/-- The switch records after a commit (R136). -/
theorem commitState_switch (s : State) (n : SwitchId) :
    (commitState s).track.switches[n] = (s.layout.switches[n]).map fun _ => freshSwitch (commitState s).env n := vector_get_ofFn _ n

section
variable {s : State} {p : PortId}

theorem performCommit_mode (h : s.loadable p) (hm : s.track.mode = .estopped) : performCommit p s = refuse .mode s := by
  unfold performCommit
  rw [loadRefusal_none s h]
  exact if_pos hm

theorem performCommit_checked (h : s.loadable p) (hm : s.track.mode ≠ .estopped) :
    performCommit p s = match commitChecks s.layout with
      | some (n, x) => (s, .invalid n x)
      | none => doneWith (commitState s) := by
  unfold performCommit
  rw [loadRefusal_none s h]
  exact if_neg hm

end

/-! ### UNCOMMIT (R15) -/

theorem anyTrain_iff (w : Track) : anyTrain w = true ↔ ∃ t : TrainId, (w.trains[t]).state ≠ .absent := by
  simp only [anyTrain, List.any_eq_true, mem_trainIds, true_and, Bool.not_eq_true', decide_eq_false_iff_not, ne_eq]

theorem anySection_iff (w : Track) : anySection w = true ↔ ∃ p : PortId, w.sections[p] ≠ .none := by
  simp only [anySection, List.any_eq_true, mem_portIds, true_and, Bool.not_eq_true', decide_eq_false_iff_not, ne_eq]

/-- A switch is MOVING, by its record. -/
theorem switchMoving_iff (w : Track) (n : SwitchId) :
    switchMoving w n = true ↔ ∃ r, w.switches[n] = some r ∧ r.isMoving = true := by
  unfold switchMoving
  cases w.switches[n] <;> simp

theorem anyMoving_iff (w : Track) :
    switchIds.any (switchMoving w) = true ↔ ∃ (n : SwitchId) (r : Switch), w.switches[n] = some r ∧ r.isMoving = true := by
  simp only [List.any_eq_true, mem_switchIds, true_and, switchMoving_iff]

section
variable {s : State} {p : PortId}

theorem uncommitRefusal_role (h : p ≠ 0) : uncommitRefusal p s = some .role := if_pos h

theorem uncommitRefusal_mode (h : p = 0) (hm : s.layout.committed = false ∨ s.track.mode ≠ .standby) :
    uncommitRefusal p s = some .mode := by
  unfold uncommitRefusal
  rw [if_neg (not_not.2 h)]
  rcases hm with hc | hm
  · rw [if_pos hc]
  · rw [if_pos hm, ite_self]

/-- Past ROLE and MODE, UNCOMMIT examines trains and sections, and then the moves (R15). -/
theorem uncommitRefusal_past (h : s.orderable p) (hm : s.track.mode = .standby) :
    uncommitRefusal p s = if anyTrain s.track || anySection s.track then some .state
      else if switchIds.any (switchMoving s.track) then some .busy else none := by
  obtain ⟨hp, hc⟩ := h
  unfold uncommitRefusal
  rw [if_neg (not_not.2 hp), if_neg (by rw [hc]; decide), if_neg (not_not.2 hm)]

end

/-- The note of a mode change by an uncommit, with the mode left. -/
def uncommitNote (left : Mode) : Note :=
  { name := .mode, subject := .mode .unconfigured, detail1 := byteOf (modeCode left * 32 + 2), detail2 := 0xFF }

/-- The record of a port after an uncommit: its role while nothing is loaded, and the MODE notice where it reaches it. -/
theorem uncommitState_port (s : State) (q : PortId) :
    (uncommitState s).ports[q] =
      deliverTo (uncommittedLayout s.layout) s.stamp q [{ note := uncommitNote s.track.mode, named := portIds }]
        { s.ports[q] with role := Role.initial[q] } := by
  unfold uncommitState
  rw [run_port, takeRoles_port]
  rfl

theorem uncommitState_zone (s : State) (z : ZoneId) : (uncommitState s).track.zones[z] = none := vector_get_replicate _ z
theorem uncommitState_tracker (s : State) (z : ZoneId) : (uncommitState s).track.trackers[z] = none := vector_get_replicate _ z
theorem uncommitState_switch (s : State) (n : SwitchId) : (uncommitState s).track.switches[n] = none := vector_get_replicate _ n

/-- The hold line of a slot with no record is driven HELD (R1). -/
theorem holdLine_undefined {w : Track} {z : ZoneId} (h : w.zones[z] = none) : w.holdLine z = false := by
  unfold Track.holdLine Track.hold
  rw [h]
  rfl

/-- The drives of a slot with no record are off (R1). -/
theorem driveLines_undefined {w : Track} {n : SwitchId} (h : w.switches[n] = none) : w.driveLines n = (false, false) := by
  unfold Track.driveLines
  rw [h]
  rfl

end Sys2Proof.Machine

namespace Sys2Proof.Proofs
open Sys2Proof.Machine

/-- Settles O17: each row by its examination, then the records of `commitState` and `uncommitState`. -/
theorem commitAndUncommit : Obligations.CommitAndUncommit := by
  refine ⟨fun s p h => ⟨fun hp => ?_, fun hp hc => ?_, fun hs hm => ?_, fun n x hs hm hx => ?_, fun hs hm hx => ?_⟩,
    fun s p h => ⟨fun hp => ?_, fun hp hm => ?_, fun hs hm hb => ?_, fun hs hm ht hq hmov => ?_, fun hs hm ht hq hmov => ?_⟩⟩
  · exact idle_refuses h rfl rfl (by simp only [perform, performCommit, loadRefusal_role s hp])
  · exact idle_refuses h rfl rfl (by simp only [perform, performCommit, loadRefusal_locked s hp hc])
  · exact idle_refuses h rfl rfl (performCommit_mode hs hm)
  · exact idle_answers h rfl rfl ((performCommit_checked hs hm).trans (by rw [hx]))
  · refine ⟨commitState s, idle_answers h rfl rfl ((performCommit_checked hs hm).trans (by rw [hx]; rfl)), rfl, rfl, rfl, rfl,
      rfl, rfl, rfl, rfl, fun z => ?_, commitState_tracker s, commitState_switch s, fun q => ?_⟩
    · rw [commitState_zone]
      exact congrArg (Option.map · _) (funext (freshZone_eq s.layout))
    · obtain ⟨_, hmask, hreplies⟩ := deliverTo_role (committedLayout s.layout) s.stamp q
        [{ note := commitNote s.track.mode, named := portIds }] s.ports[q]
      rw [commitState_port]
      exact ⟨rfl, hmask, hreplies, deliverTo_mode_notices _ _ _ _ _ rfl⟩
  · exact idle_refuses h rfl rfl (by simp only [perform, performUncommit, uncommitRefusal_role hp])
  · exact idle_refuses h rfl rfl (by simp only [perform, performUncommit, uncommitRefusal_mode hp hm])
  · rw [← anyTrain_iff, ← anySection_iff, ← Bool.or_eq_true] at hb
    exact idle_refuses h rfl rfl (by simp only [perform, performUncommit, uncommitRefusal_past hs hm, if_pos hb])
  · rw [← anyTrain_iff] at ht
    rw [← anySection_iff] at hq
    rw [← anyMoving_iff] at hmov
    exact idle_refuses h rfl rfl (by simp only [perform, performUncommit, uncommitRefusal_past hs hm, ht, hq, hmov]; rfl)
  · rw [← anyTrain_iff] at ht
    rw [← anySection_iff] at hq
    rw [← anyMoving_iff] at hmov
    refine ⟨uncommitState s, idle_answers h rfl rfl
        (by simp only [perform, performUncommit, uncommitRefusal_past hs hm, ht, hq, hmov]; rfl), rfl,
      fun r => vector_get_replicate _ r, rfl, rfl, rfl, fun z => ⟨uncommitState_zone s z, uncommitState_tracker s z⟩,
      uncommitState_switch s, fun z => holdLine_undefined (uncommitState_zone s z),
      fun n => driveLines_undefined (uncommitState_switch s n), fun q => ?_⟩
    obtain ⟨hrole, _, _⟩ := deliverTo_role (uncommittedLayout s.layout) s.stamp q
        [{ note := uncommitNote s.track.mode, named := portIds }] { s.ports[q] with role := Role.initial[q] }
    rw [uncommitState_port]
    exact ⟨hrole.trans (initialRole q), deliverTo_mode_notices _ _ _ _ _ rfl⟩

end Sys2Proof.Proofs
end

section
/-! SUPPORT. The seven checks of a commit (R10 to R12, Table 1-4), each by what the manual says of the layout. -/

namespace Sys2Proof.Machine

/-! ### The first check that fails (R10) -/

/-- The first failure of some checks, numbered from `n`. -/
def firstFailed (n : Nat) : List (Option CheckSubject) → Option (Nat × CheckSubject)
  | [] => none
  | c :: cs => failed n c <|> firstFailed (n + 1) cs

theorem firstFailed_pass (n : Nat) (cs : List (Option CheckSubject)) :
    firstFailed n (none :: cs) = firstFailed (n + 1) cs := rfl
theorem firstFailed_fail (n : Nat) (x : CheckSubject) (cs : List (Option CheckSubject)) :
    firstFailed n (some x :: cs) = some (n, x) := rfl

/-- The checks of COMMIT in the order of Table 1-4. -/
theorem commitChecks_eq (l : Layout) : commitChecks l =
    firstFailed 1 [check1 l, check2 l, check3 l, check4 l, check5 l, check6 l, check7 l] := by
  simp [commitChecks, firstFailed]

theorem firstFailed_none (n : Nat) (cs : List (Option CheckSubject)) : firstFailed n cs = none ↔ ∀ c ∈ cs, c = none := by
  induction cs generalizing n with
  | nil => simp [firstFailed]
  | cons c cs ih =>
    cases c with
    | none => simp [firstFailed_pass, ih]
    | some x => simp [firstFailed_fail]

/-- Failures are numbered from the first number on. -/
theorem firstFailed_ge (n : Nat) (cs : List (Option CheckSubject)) {m : Nat} {x : CheckSubject}
    (h : firstFailed n cs = some (m, x)) : n ≤ m := by
  induction cs generalizing n with
  | nil => cases h
  | cons c cs ih =>
    cases c with
    | none => exact Nat.le_of_succ_le (ih (n + 1) h)
    | some y => cases h; exact Nat.le_refl _

/-- The failure with the number `n + k` is that of check `k`, all before it having passed. -/
theorem firstFailed_some (n k : Nat) (x : CheckSubject) (cs : List (Option CheckSubject)) :
    firstFailed n cs = some (n + k, x) ↔ cs[k]? = some (some x) ∧ ∀ j, j < k → cs[j]? = some none := by
  induction cs generalizing n k with
  | nil => simp [firstFailed]
  | cons c cs ih =>
    cases c with
    | some y =>
      rw [firstFailed_fail]
      cases k with
      | zero => simp
      | succ k =>
        refine ⟨fun h => ?_, fun h => ?_⟩
        · have := congrArg Prod.fst (Option.some.inj h); simp at this
        · exact nomatch h.2 0 (Nat.zero_lt_succ k)
    | none =>
      rw [firstFailed_pass]
      cases k with
      | zero =>
        refine ⟨fun h => ?_, fun h => nomatch h.1⟩
        exact absurd (firstFailed_ge (n + 1) cs h) (Nat.not_succ_le_self n)
      | succ k =>
        rw [show n + (k + 1) = n + 1 + k by omega, ih, List.getElem?_cons_succ]
        refine and_congr_right fun _ => ⟨fun h j hj => ?_, fun h j hj => ?_⟩
        · cases j with
          | zero => rfl
          | succ j => exact h j (by omega)
        · exact h (j + 1) (by omega)

/-! ### The lowest number that fails a check -/

/-- A check that names the lowest number with a fault, and none where no number has it. -/
def lowest {n : Nat} (f : Fin n → CheckSubject) (c : Option CheckSubject) (bad : Fin n → Prop) : Prop :=
  (c = none ↔ ∀ z, ¬ bad z) ∧ ∀ z, c = some (f z) ↔ bad z ∧ ∀ y, y < z → ¬ bad y

/-- The first number of a range with a property is the lowest that has it. -/
theorem finRange_find?_some {n : Nat} (q : Fin n → Bool) (z : Fin n) :
    (List.finRange n).find? q = some z ↔ q z = true ∧ ∀ y, y < z → ¬ q y = true := by
  rw [List.find?_eq_some_iff_getElem]
  refine and_congr_right fun _ => ⟨?_, fun h => ?_⟩
  · rintro ⟨i, hi, rfl, hlow⟩ y hy
    have := hlow y.val (by simpa [Fin.lt_def] using hy)
    simpa using this
  · exact ⟨z.val, by simp, by simp, fun j hj => by simpa using h ⟨j, by omega⟩ hj⟩

/-- A search from the lowest number. -/
theorem lowest_find? {n : Nat} (f : Fin n → CheckSubject) (hf : Function.Injective f) {q : Fin n → Bool} {bad : Fin n → Prop}
    (h : ∀ z, q z = true ↔ bad z) : lowest f (((List.finRange n).find? q).map f) bad := by
  simp only [lowest, Option.map_eq_none_iff, List.find?_eq_none, List.mem_finRange, forall_const, Option.map_eq_some_iff, h]
  refine ⟨trivial, fun z => ⟨?_, fun hz => ⟨z, ?_, rfl⟩⟩⟩
  · rintro ⟨y, hy, e⟩
    rw [hf e, finRange_find?_some] at hy
    simpa only [h] using hy
  · rw [finRange_find?_some]
    simpa only [h] using hz

/-- A search from the lowest number among those with a record. -/
theorem lowest_find?_filter {n : Nat} (f : Fin n → CheckSubject) (hf : Function.Injective f) {d q : Fin n → Bool}
    {bad : Fin n → Prop} (h : ∀ z, (d z = true ∧ q z = true) ↔ bad z) :
    lowest f ((((List.finRange n).filter d).find? q).map f) bad := by
  rw [List.find?_filter]
  exact lowest_find? f hf fun z => by rw [decide_eq_true_eq]; exact h z

theorem zone_injective : Function.Injective CheckSubject.zone := fun _ _ h => by cases h; rfl
theorem switch_injective : Function.Injective CheckSubject.switch := fun _ _ h => by cases h; rfl
theorem port_injective : Function.Injective CheckSubject.port := fun _ _ h => by cases h; rfl

/-! ### Zones and their exits (R3, R6) -/

/-- A RUN zone, by its record. -/
def Layout.runZone (l : Layout) (z : ZoneId) : Prop := ∃ r, l.zones[z] = some r ∧ r.kind = .run

/-- A train leaving zone `a` by its exit may enter zone `b`. -/
def Layout.follows (l : Layout) (a b : ZoneId) : Prop :=
  ∃ r : ZoneLayout, l.zones[a] = some r ∧ (r.exit = .zone b ∨
    ∃ (n : SwitchId) (w : SwitchLayout), r.exit = .switch n ∧ l.switches[n] = some w ∧
      ((w.kind = .diverge ∧ (b = w.straight ∨ b = w.diverge)) ∨ (w.kind = .merge ∧ b = w.root)))

theorem isRun_iff (l : Layout) (z : ZoneId) : l.isRun z = true ↔ l.runZone z := by
  simp [Layout.isRun, Layout.runZone]

theorem exitOf_eq_some (l : Layout) (z : ZoneId) (x : Exit) : l.exitOf z = some x ↔ ∃ r, l.zones[z] = some r ∧ r.exit = x := by
  simp [Layout.exitOf]

theorem exits_iff (l : Layout) (z : ZoneId) (x : Exit) : l.exits z x = true ↔ (l.zones[z]).map (·.exit) = some x :=
  decide_eq_true_iff

/-- A zone with an exit is defined. -/
theorem defines_of_exitOf {l : Layout} {z : ZoneId} {x : Exit} (h : l.exitOf z = some x) : l.defines z = true := by
  obtain ⟨r, hr, _⟩ := (exitOf_eq_some l z x).1 h
  rw [defines_iff, hr]
  exact nofun

/-- The hops through a switch, by its kind (R6). -/
theorem mem_switchHops (n : SwitchId) (w : SwitchLayout) (a : ZoneId) (x : ZoneId × List Requirement) :
    x ∈ switchHops n w a ↔
      (w.kind = .diverge ∧ (x = (w.straight, [{ switch := n, position := .straight }]) ∨
        x = (w.diverge, [{ switch := n, position := .diverge }]))) ∨
      (w.kind = .merge ∧ x = (w.root, [{ switch := n, position := if a = w.straight then .straight else .diverge }])) := by
  unfold switchHops
  cases w.kind <;> simp

/-- The hops from a zone, by its exit (R3). -/
theorem mem_hops (l : Layout) (a : ZoneId) (x : ZoneId × List Requirement) :
    x ∈ hops l a ↔ ∃ r : ZoneLayout, l.zones[a] = some r ∧ ((∃ b, r.exit = .zone b ∧ x = (b, [])) ∨
      ∃ (n : SwitchId) (w : SwitchLayout), r.exit = .switch n ∧ l.switches[n] = some w ∧ x ∈ switchHops n w a) := by
  unfold hops Layout.exitOf
  cases l.zones[a] with
  | none => simp
  | some r =>
    cases hx : r.exit with
    | zone b => simp [hx]
    | switch n => cases hn : l.switches[n] <;> simp_all

/-- A hop leads to a zone that follows. -/
theorem follows_iff (l : Layout) (a b : ZoneId) : l.follows a b ↔ ∃ qs, (b, qs) ∈ hops l a := by
  simp only [mem_hops, mem_switchHops, Layout.follows]
  constructor
  · rintro ⟨r, hr, hb | ⟨n, w, hx, hn, ⟨hk, rfl | rfl⟩ | ⟨hk, rfl⟩⟩⟩
    · exact ⟨[], r, hr, .inl ⟨b, hb, rfl⟩⟩
    · exact ⟨_, r, hr, .inr ⟨n, w, hx, hn, .inl ⟨hk, .inl rfl⟩⟩⟩
    · exact ⟨_, r, hr, .inr ⟨n, w, hx, hn, .inl ⟨hk, .inr rfl⟩⟩⟩
    · exact ⟨_, r, hr, .inr ⟨n, w, hx, hn, .inr ⟨hk, rfl⟩⟩⟩
  · rintro ⟨qs, r, hr, ⟨y, hx, e⟩ | ⟨n, w, hx, hn, ⟨hk, e | e⟩ | ⟨hk, e⟩⟩⟩ <;> cases e
    · exact ⟨r, hr, .inl hx⟩
    · exact ⟨r, hr, .inr ⟨n, w, hx, hn, .inl ⟨hk, .inl rfl⟩⟩⟩
    · exact ⟨r, hr, .inr ⟨n, w, hx, hn, .inl ⟨hk, .inr rfl⟩⟩⟩
    · exact ⟨r, hr, .inr ⟨n, w, hx, hn, .inr ⟨hk, rfl⟩⟩⟩

/-- A property of the zones that hops lead to. -/
theorem any_hops (l : Layout) (a : ZoneId) (f : ZoneId → Bool) :
    ((hops l a).any fun h => f h.1) = true ↔ ∃ b, l.follows a b ∧ f b = true := by
  simp only [List.any_eq_true, follows_iff, Prod.exists, exists_and_right]

/-! ### Check 1 (R11) -/

theorem definedZones_eq (l : Layout) : definedZones l = zoneIds.filter fun z => decide (l.zones[z] ≠ none) :=
  List.filter_congr fun z _ => by rw [Bool.eq_iff_iff, defines_iff, decide_eq_true_eq]

/-- A successor that is undefined or the zone itself. -/
theorem badSuccessor_iff (l : Layout) (z : ZoneId) :
    (l.defines z = true ∧ badSuccessor l z = true) ↔ ∃ (r : ZoneLayout) (y : ZoneId), l.zones[z] = some r ∧
      r.exit = .zone y ∧ (l.zones[y] = none ∨ y = z) := by
  have hb : badSuccessor l z = true ↔ ∃ y, l.exitOf z = some (.zone y) ∧ (l.zones[y] = none ∨ y = z) := by
    unfold badSuccessor
    cases l.exitOf z with
    | none => simp
    | some x => cases x <;> simp [Layout.defines]
  constructor
  · rintro ⟨_, h⟩
    obtain ⟨y, hy, hbad⟩ := hb.1 h
    obtain ⟨r, hr, hx⟩ := (exitOf_eq_some ..).1 hy
    exact ⟨r, y, hr, hx, hbad⟩
  · rintro ⟨r, y, hr, hx, hbad⟩
    have hy := (exitOf_eq_some l z (.zone y)).2 ⟨r, hr, hx⟩
    exact ⟨defines_of_exitOf hy, hb.2 ⟨y, hy, hbad⟩⟩

theorem check1_few {l : Layout} (h : (zoneIds.filter fun z => decide (l.zones[z] ≠ none)).length < 2) :
    check1 l = some .none := by
  unfold check1
  rw [definedZones_eq]
  exact if_pos h

theorem check1_lowest {l : Layout} (h : ¬ (zoneIds.filter fun z => decide (l.zones[z] ≠ none)).length < 2) :
    lowest .zone (check1 l) fun z => ∃ (r : ZoneLayout) (y : ZoneId), l.zones[z] = some r ∧ r.exit = .zone y ∧
      (l.zones[y] = none ∨ y = z) := by
  unfold check1
  rw [← definedZones_eq] at h
  rw [if_neg h]
  exact lowest_find?_filter _ zone_injective (badSuccessor_iff l)

/-! ### Check 2 (R11) -/

/-- A switch whose zones are undefined, not different, or do not exit to it. -/
def Layout.switchDisagrees (l : Layout) (n : SwitchId) : Prop :=
  ∃ w, l.switches[n] = some w ∧
    (l.zones[w.root] = none ∨ l.zones[w.straight] = none ∨ l.zones[w.diverge] = none ∨ w.root = w.straight ∨
      w.root = w.diverge ∨ w.straight = w.diverge ∨
      (w.kind = .diverge ∧ (l.zones[w.root]).map (·.exit) ≠ some (.switch n)) ∨
      (w.kind = .merge ∧ ((l.zones[w.straight]).map (·.exit) ≠ some (.switch n) ∨
        (l.zones[w.diverge]).map (·.exit) ≠ some (.switch n))))

theorem badSwitch_iff (l : Layout) (n : SwitchId) : badSwitch l n = true ↔ l.switchDisagrees n := by
  unfold badSwitch Layout.switchDisagrees
  cases l.switches[n] with
  | none => simp
  | some w =>
    have hd : ∀ z, l.defines z = false ↔ l.zones[z] = none := fun z => by
      rw [← Bool.not_eq_true, defines_iff, not_not]
    have hx : ∀ z x, l.exits z x = false ↔ (l.zones[z]).map (·.exit) ≠ some x := fun z x => by
      rw [← Bool.not_eq_true, exits_iff]
    cases hk : w.kind <;>
      simp only [Option.some.injEq, exists_eq_left', Bool.or_eq_true, Bool.not_eq_true', Bool.and_eq_false_iff, hd, hx,
        decide_eq_true_eq, hk, or_assoc, true_and, reduceCtorEq, false_and, or_false, false_or]

theorem switchDisagrees_defined (l : Layout) (n : SwitchId) :
    ((l.switches[n]).isSome = true ∧ badSwitch l n = true) ↔ l.switchDisagrees n := by
  rw [badSwitch_iff, and_iff_right_iff_imp]
  rintro ⟨w, hw, _⟩
  rw [hw]
  rfl

/-- The number of entrances of a zone, by the records of the layout. -/
def Layout.entranceCount (l : Layout) (z : ZoneId) : Nat :=
  (zoneIds.filter fun y => decide (y ≠ z) && decide ((l.zones[y]).map (·.exit) = some (.zone z))).length +
  (switchIds.filter fun n => (l.switches[n]).any fun w => switchEnters w z).length

theorem entrances_eq (l : Layout) (z : ZoneId) : entrances l z = l.entranceCount z := by
  unfold entrances definedZones definedSwitches Layout.entranceCount
  rw [List.filter_filter, List.filter_filter]
  congr 2
  · refine List.filter_congr fun y _ => ?_
    have hd : l.exits y (.zone z) = true → l.defines y = true := fun h => defines_of_exitOf (decide_eq_true_iff.1 h)
    show ((decide (y ≠ z) && l.exits y (.zone z)) && l.defines y) = (decide (y ≠ z) && l.exits y (.zone z))
    cases hx : l.exits y (.zone z) with
    | false => simp
    | true => simp [hd hx]
  · refine List.filter_congr fun n _ => ?_
    cases l.switches[n] <;> simp

/-- A zone whose exit names a switch that does not take it, or with two entrances. -/
def Layout.exitDisagrees (l : Layout) (z : ZoneId) : Prop :=
  ∃ r, l.zones[z] = some r ∧ ((∃ n : SwitchId, r.exit = .switch n ∧
    (l.switches[n] = none ∨ ∃ w, l.switches[n] = some w ∧
      ((w.kind = .diverge ∧ w.root ≠ z) ∨ (w.kind = .merge ∧ w.straight ≠ z ∧ w.diverge ≠ z)))) ∨ 2 ≤ l.entranceCount z)

/-- An exit to a switch that does not take the zone. -/
theorem badExit_iff (l : Layout) (z : ZoneId) : badExit l z = true ↔ ∃ n : SwitchId, l.exitOf z = some (.switch n) ∧
    (l.switches[n] = none ∨ ∃ w, l.switches[n] = some w ∧
      ((w.kind = .diverge ∧ w.root ≠ z) ∨ (w.kind = .merge ∧ w.straight ≠ z ∧ w.diverge ≠ z))) := by
  unfold badExit
  cases l.exitOf z with
  | none => simp
  | some x =>
    cases x with
    | zone y => simp
    | switch n =>
      simp only [Option.some.injEq, Exit.switch.injEq, exists_eq_left']
      cases l.switches[n] with
      | none => simp
      | some w => cases hk : w.kind <;> simp [hk]

theorem exitDisagrees_iff (l : Layout) (z : ZoneId) :
    (l.defines z = true ∧ (badExit l z || decide (1 < entrances l z)) = true) ↔ l.exitDisagrees z := by
  rw [Bool.or_eq_true, badExit_iff, decide_eq_true_eq, entrances_eq]
  unfold Layout.exitDisagrees Layout.defines Layout.exitOf
  cases l.zones[z] with
  | none => simp
  | some r => simp only [Option.isSome_some, true_and, Option.map_some, Option.some.injEq, exists_eq_left', Nat.succ_le_iff]

theorem check2_switch (l : Layout) (n : SwitchId) :
    check2 l = some (.switch n) ↔ l.switchDisagrees n ∧ ∀ m, m < n → ¬ l.switchDisagrees m := by
  rw [← (lowest_find?_filter CheckSubject.switch switch_injective (switchDisagrees_defined l)).2 n]
  unfold check2
  show _ ↔ ((definedSwitches l).find? (badSwitch l)).map CheckSubject.switch = _
  cases (definedSwitches l).find? (badSwitch l) with
  | none => simp
  | some m => simp

theorem check2_zone {l : Layout} (h : ∀ n, ¬ l.switchDisagrees n) : lowest .zone (check2 l) l.exitDisagrees := by
  have hn : (definedSwitches l).find? (badSwitch l) = none := by
    rw [List.find?_eq_none]
    intro n _ hb
    exact h n ((badSwitch_iff l n).1 hb)
  unfold check2
  rw [hn]
  exact lowest_find?_filter _ zone_injective (exitDisagrees_iff l)

/-- Once check 2 passes, switches and exits agree. -/
theorem check2_passed {l : Layout} (h : check2 l = none) : (∀ n, ¬ l.switchDisagrees n) ∧ ∀ z, ¬ l.exitDisagrees z := by
  have hn : ∀ n, ¬ l.switchDisagrees n := by
    unfold check2 at h
    split at h
    · cases h
    · next hf =>
      rw [List.find?_eq_none] at hf
      intro n hn
      obtain ⟨hd, hb⟩ := (switchDisagrees_defined l n).2 hn
      exact hf n (List.mem_filter.2 ⟨List.mem_finRange n, hd⟩) hb
  exact ⟨hn, (check2_zone hn).1.1 h⟩

/-! ### Checks 3 and 4 (R11) -/

/-- The property of a RUN zone among the defined ones. -/
theorem defines_and_isRun (l : Layout) (z : ZoneId) (b : Bool) :
    (l.defines z = true ∧ (l.isRun z && b) = true) ↔ l.runZone z ∧ b = true := by
  rw [Bool.and_eq_true, isRun_iff, and_iff_right_iff_imp]
  rintro ⟨⟨r, hr, _⟩, _⟩
  rw [defines_iff, hr]
  exact nofun

/-- A path that has passed fewer than five RUN zones counts five when one of its ways on does. -/
theorem overLong_succ (l : Layout) (k : Nat) (z : ZoneId) (ps : List ZoneId) (h : ps.length < 5) :
    overLong l (k + 1) z ps = true ↔
      ∃ a, l.follows z a ∧ l.runZone a ∧ a ∉ ps ∧ overLong l k a (ps ++ [a]) = true := by
  have hn : decide (runBound ≤ ps.length) = false := decide_eq_false (Nat.not_le.2 h)
  rw [overLong, hn, Bool.false_or, any_hops l z fun a => l.isRun a && !decide (a ∈ ps) && overLong l k a (ps ++ [a])]
  simp only [Bool.and_eq_true, isRun_iff, Bool.not_eq_true', decide_eq_false_iff_not, and_assoc]

/-- A path that has passed five RUN zones counts five. -/
theorem overLong_five (l : Layout) (k : Nat) (z : ZoneId) (ps : List ZoneId) (h : 5 ≤ ps.length) :
    overLong l k z ps = true := by
  cases k with
  | zero => exact decide_eq_true h
  | succ k =>
    unfold overLong
    rw [decide_eq_true (show runBound ≤ ps.length from h), Bool.true_or]

theorem overLong_iff (l : Layout) (z : ZoneId) :
    (l.runZone z ∧ overLong l runBound z [z] = true) ↔ ∃ a b c d : ZoneId, [z, a, b, c, d].Nodup ∧
      (∀ y ∈ [z, a, b, c, d], l.runZone y) ∧ l.follows z a ∧ l.follows a b ∧ l.follows b c ∧ l.follows c d := by
  have step := overLong_succ l
  have hsnoc : ∀ (xs : List ZoneId) x, (xs ++ [x]).Nodup ↔ xs.Nodup ∧ x ∉ xs := fun xs x => by
    rw [← List.concat_eq_append, List.nodup_concat, and_comm]
  have hn : ∀ a b c d, [z, a, b, c, d].Nodup ↔
      a ∉ [z] ∧ b ∉ [z] ++ [a] ∧ c ∉ [z] ++ [a] ++ [b] ∧ d ∉ [z] ++ [a] ++ [b] ++ [c] := fun a b c d => by
    rw [show [z, a, b, c, d] = [z] ++ [a] ++ [b] ++ [c] ++ [d] from rfl, hsnoc, hsnoc, hsnoc, hsnoc]
    simp only [List.nodup_singleton, true_and, and_assoc]
  have hr : ∀ a b c d, (∀ y ∈ [z, a, b, c, d], l.runZone y) ↔
      l.runZone z ∧ l.runZone a ∧ l.runZone b ∧ l.runZone c ∧ l.runZone d := fun a b c d => by simp
  simp only [hn, hr]
  constructor
  · rintro ⟨hz, h⟩
    obtain ⟨a, hza, ha, na, h⟩ := (step 4 _ _ (by simp)).1 h
    obtain ⟨b, hab, hb, nb, h⟩ := (step 3 _ _ (by simp)).1 h
    obtain ⟨c, hbc, hc, nc, h⟩ := (step 2 _ _ (by simp)).1 h
    obtain ⟨d, hcd, hd, nd, _⟩ := (step 1 _ _ (by simp)).1 h
    exact ⟨a, b, c, d, ⟨na, nb, nc, nd⟩, ⟨hz, ha, hb, hc, hd⟩, hza, hab, hbc, hcd⟩
  · rintro ⟨a, b, c, d, ⟨na, nb, nc, nd⟩, ⟨hz, ha, hb, hc, hd⟩, hza, hab, hbc, hcd⟩
    exact ⟨hz, (step 4 _ _ (by simp)).2 ⟨a, hza, ha, na, (step 3 _ _ (by simp)).2 ⟨b, hab, hb, nb,
      (step 2 _ _ (by simp)).2 ⟨c, hbc, hc, nc, (step 1 _ _ (by simp)).2 ⟨d, hcd, hd, nd,
        overLong_five _ _ _ _ (by simp)⟩⟩⟩⟩⟩

theorem check3_lowest (l : Layout) : lowest .zone (check3 l) fun z => ∃ a b c d : ZoneId, [z, a, b, c, d].Nodup ∧
    (∀ y ∈ [z, a, b, c, d], l.runZone y) ∧ l.follows z a ∧ l.follows a b ∧ l.follows b c ∧ l.follows c d :=
  lowest_find?_filter _ zone_injective fun z => (defines_and_isRun l z _).trans (overLong_iff l z)

/-- A path over RUN zones comes back to `z0` at once or after a RUN zone. -/
theorem returnsTo_succ (l : Layout) (z0 : ZoneId) (k : Nat) (z : ZoneId) :
    returnsTo l z0 (k + 1) z = true ↔
      l.follows z z0 ∨ ∃ a, l.runZone a ∧ l.follows z a ∧ returnsTo l z0 k a = true := by
  rw [returnsTo, any_hops l z fun a => decide (a = z0) || (l.isRun a && returnsTo l z0 k a)]
  simp only [Bool.or_eq_true, decide_eq_true_eq, Bool.and_eq_true, isRun_iff, and_or_left, exists_or, exists_eq_right]
  simp only [and_left_comm]

theorem returnsTo_zero (l : Layout) (z0 z : ZoneId) : returnsTo l z0 0 z = false := rfl

theorem check4_lowest (l : Layout) : lowest .zone (check4 l) fun z => l.runZone z ∧ (l.follows z z ∨
    ∃ a, l.runZone a ∧ l.follows z a ∧ (l.follows a z ∨ ∃ b, l.runZone b ∧ l.follows a b ∧
      (l.follows b z ∨ ∃ c, l.runZone c ∧ l.follows b c ∧ (l.follows c z ∨
        ∃ d, l.runZone d ∧ l.follows c d ∧ l.follows d z)))) := by
  refine lowest_find?_filter _ zone_injective fun z => (defines_and_isRun l z _).trans (and_congr_right fun _ => ?_)
  simp only [runBound, returnsTo_succ, returnsTo_zero, Bool.false_eq_true, and_false, exists_false, or_false]

/-! ### Checks 5 to 7 (R12) -/

theorem stationReady_some (l : Layout) (z : ZoneId) (i : ReadyId) :
    stationReady l z = some i ↔ ∃ r, l.zones[z] = some r ∧ r.kind = .station ∧ r.ready = some i := by
  unfold stationReady
  cases l.zones[z] with
  | none => simp
  | some r => simp

theorem check5_lowest (l : Layout) : lowest .zone (check5 l) fun z => ∃ (r : ZoneLayout) (i : ReadyId), l.zones[z] = some r ∧
    r.kind = .station ∧ r.ready = some i ∧ ∃ (y : ZoneId) (q : ZoneLayout), y < z ∧ l.zones[y] = some q ∧
      q.kind = .station ∧ q.ready = some i := by
  refine lowest_find? _ zone_injective fun z => ?_
  simp only [Bool.and_eq_true, Option.isSome_iff_exists, List.any_eq_true, zoneIds, List.mem_finRange, true_and,
    decide_eq_true_eq]
  constructor
  · rintro ⟨⟨i, hi⟩, y, hy, e⟩
    obtain ⟨r, hr, hk, hri⟩ := (stationReady_some ..).1 hi
    obtain ⟨q, hq, hqk, hqi⟩ := (stationReady_some ..).1 (e.trans hi)
    exact ⟨r, i, hr, hk, hri, y, q, hy, hq, hqk, hqi⟩
  · rintro ⟨r, i, hr, hk, hri, y, q, hy, hq, hqk, hqi⟩
    have hi := (stationReady_some l z i).2 ⟨r, hr, hk, hri⟩
    exact ⟨⟨i, hi⟩, y, hy, ((stationReady_some l y i).2 ⟨q, hq, hqk, hqi⟩).trans hi.symm⟩

theorem check6_lowest (l : Layout) : lowest .zone (check6 l) fun z => ∃ (r : ZoneLayout) (p : PortId), l.zones[z] = some r ∧
    r.owner = some p ∧ l.roles[p] ≠ (if r.kind = .station then .station else .transfer) := by
  refine lowest_find? _ zone_injective fun z => ?_
  unfold badOwner
  cases l.zones[z] with
  | none => simp
  | some r =>
    have hrole : ownerRole r.kind = if r.kind = .station then .station else .transfer := by cases r.kind <;> rfl
    cases ho : r.owner with
    | none => simp [ho]
    | some p => simp [ho, hrole]

/-- The port owns a zone, of a STATION where that is asked. -/
def Layout.owns (l : Layout) (p : PortId) (station : Prop) : Prop := ∃ (z : ZoneId) (r : ZoneLayout),
  l.zones[z] = some r ∧ r.owner = some p ∧ (station → r.kind = .station)

theorem ownsZone_iff (l : Layout) (p : PortId) (station : Bool) :
    ownsZone l p station = true ↔ l.owns p (station = true) := by
  unfold ownsZone zoneIds Layout.owns
  simp only [List.any_eq_true, List.mem_finRange, true_and]
  refine exists_congr fun z => ?_
  cases l.zones[z] with
  | none => simp
  | some r => cases station <;> simp

theorem badRole_iff (l : Layout) (p : PortId) : badRole l p = true ↔
    (l.roles[p] = .station ∧ ¬ l.owns p True) ∨ (l.roles[p] = .transfer ∧ ¬ l.owns p False) := by
  have ht := ownsZone_iff l p true
  have hf := ownsZone_iff l p false
  simp only [Bool.false_eq_true] at ht hf
  rw [← ht, ← hf]
  unfold badRole
  cases l.roles[p] <;> simp

theorem check7_lowest (l : Layout) : lowest .port (check7 l) fun p => p ≠ 0 ∧
    ((l.roles[p] = .station ∧ ¬ l.owns p True) ∨ (l.roles[p] = .transfer ∧ ¬ l.owns p False)) := by
  have hports : ([1, 2, 3] : List PortId) = (List.finRange 4).filter fun p => decide (p ≠ 0) := by decide
  unfold check7
  rw [hports]
  exact lowest_find?_filter _ port_injective fun p => by rw [decide_eq_true_eq, badRole_iff]

end Sys2Proof.Machine
end

section
/-! SUPPORT. The legs of a layout (R14): the leg set as the paths along hops, and these as the paths of the track graph. -/

namespace Sys2Proof.Machine

/-! ### The leg set as paths along hops -/

/-- A path along hops from zone `a` that ends at the first stoppable zone. -/
def hopPath (l : Layout) (a : ZoneId) : List (ZoneId × List Requirement) → Prop
  | [] => False
  | x :: xs => x ∈ hops l a ∧ ((l.isStop x.1 = true ∧ xs = []) ∨ (l.isStop x.1 = false ∧ hopPath l x.1 xs))

/-- The legs that go on from a zone are the paths along hops from it, behind the zones passed and the positions needed. -/
theorem mem_legsOn (l : Layout) (s : ZoneId) (k : Nat) (a : ZoneId) (zs : List ZoneId) (qs : List Requirement) (g : Leg) :
    g ∈ legsOn l s k a zs qs ↔ ∃ xs, xs.length ≤ k ∧ hopPath l a xs ∧
      g = { start := s, zones := zs ++ xs.map (·.1), reqs := qs ++ xs.flatMap (·.2) } := by
  induction k generalizing a zs qs with
  | zero =>
    refine ⟨nofun, ?_⟩
    rintro ⟨xs, hk, hp, _⟩
    rw [List.length_eq_zero_iff.1 (Nat.le_zero.1 hk)] at hp
    exact hp.elim
  | succ k ih =>
    rw [legsOn, List.mem_flatMap]
    constructor
    · rintro ⟨x, hx, hg⟩
      split at hg
      · next hs =>
        refine ⟨[x], by simp, ⟨hx, .inl ⟨hs, rfl⟩⟩, ?_⟩
        simpa using hg
      · next hs =>
        obtain ⟨xs, hk, hp, rfl⟩ := (ih ..).1 hg
        refine ⟨x :: xs, Nat.succ_le_succ hk, ⟨hx, .inr ⟨eq_false_of_ne_true hs, hp⟩⟩, by simp⟩
    · rintro ⟨_ | ⟨x, xs⟩, hk, hp, rfl⟩
      · exact hp.elim
      · obtain ⟨hx, ⟨hs, rfl⟩ | ⟨hs, hp⟩⟩ := hp
        · exact ⟨x, hx, by rw [if_pos hs]; simp⟩
        · refine ⟨x, hx, ?_⟩
          rw [if_neg (ne_true_of_eq_false hs), ih]
          exact ⟨xs, Nat.le_of_succ_le_succ hk, hp, by simp⟩

/-- The leg set: from every stoppable zone the paths along at most five hops. -/
theorem mem_legSet (l : Layout) (g : Leg) : g ∈ legSet l ↔ l.stoppableZone g.start ∧
    ∃ xs, xs.length ≤ 5 ∧ hopPath l g.start xs ∧ g.zones = xs.map (·.1) ∧ g.reqs = xs.flatMap (·.2) := by
  simp only [legSet, List.mem_flatMap, List.mem_filter, zoneIds, List.mem_finRange, true_and, isStop_iff, mem_legsOn,
    List.nil_append]
  constructor
  · rintro ⟨a, ha, xs, hk, hp, rfl⟩
    exact ⟨ha, xs, hk, hp, rfl, rfl⟩
  · rintro ⟨ha, xs, hk, hp, hz, hr⟩
    exact ⟨g.start, ha, xs, hk, hp, by rw [← hz, ← hr]⟩

/-- A defined zone that is not stoppable is a RUN zone. -/
theorem runZone_iff (l : Layout) (z : ZoneId) : l.runZone z ↔ l.isStop z = false ∧ l.zones[z] ≠ none := by
  unfold Layout.runZone Layout.isStop
  cases l.zones[z] with
  | none => simp
  | some r => cases hk : r.kind <;> simp [stoppable, hk]

/-- A zone that a hop leads on from is defined. -/
theorem hopPath_defined {l : Layout} {a : ZoneId} {xs : List (ZoneId × List Requirement)} (h : hopPath l a xs) :
    l.zones[a] ≠ none := by
  cases xs with
  | nil => exact h.elim
  | cons x xs =>
    obtain ⟨r, hr, _⟩ := (mem_hops l a x).1 h.1
    rw [hr]
    exact nofun

/-- A path along hops has a zone or more, the last of them stoppable and the others RUN. -/
theorem hopPath_zones {l : Layout} {a : ZoneId} {xs : List (ZoneId × List Requirement)} (h : hopPath l a xs) :
    1 ≤ xs.length ∧ (∀ z, (xs.map (·.1)).getLast? = some z → l.stoppableZone z) ∧
      ∀ z ∈ (xs.map (·.1)).dropLast, l.runZone z := by
  induction xs generalizing a with
  | nil => exact h.elim
  | cons x xs ih =>
    refine ⟨Nat.succ_pos _, ?_⟩
    obtain ⟨_, ⟨hs, rfl⟩ | ⟨hs, hp⟩⟩ := h
    · refine ⟨fun z hz => ?_, fun z hz => absurd hz (by simp)⟩
      cases hz
      exact (isStop_iff ..).1 hs
    · obtain ⟨hlen, hlast, hrun⟩ := ih hp
      obtain ⟨y, ys, rfl⟩ := List.exists_cons_of_length_pos hlen
      refine ⟨fun z hz => hlast z hz, fun z hz => ?_⟩
      rw [List.map_cons, List.map_cons, List.dropLast_cons_cons, List.mem_cons] at hz
      rcases hz with rfl | hz
      · exact (runZone_iff ..).2 ⟨hs, hopPath_defined hp⟩
      · exact hrun z hz

theorem legSet_zones {l : Layout} {g : Leg} (h : g ∈ legSet l) :
    l.stoppableZone g.start ∧ 1 ≤ g.zones.length ∧ g.zones.length ≤ 5 ∧
      (∀ z, g.zones.getLast? = some z → l.stoppableZone z) ∧ ∀ z ∈ g.zones.dropLast, l.runZone z := by
  obtain ⟨hs, xs, hk, hp, hz, _⟩ := (mem_legSet l g).1 h
  rw [hz, List.length_map]
  obtain ⟨hlen, hlast, hrun⟩ := hopPath_zones hp
  exact ⟨hs, hlen, hk, hlast, hrun⟩

/-! ### Paths along hops as paths of the track graph -/

/-- A passage as a hop. -/
def asHop (x : ZoneId × Option Requirement) : ZoneId × List Requirement := (x.1, x.2.toList)

/-- Once check 2 passes, the hops from a zone are the passages from it (R3, R6). -/
theorem mem_hops_passage {l : Layout} (h : check2 l = none) (a : ZoneId) (x : ZoneId × List Requirement) :
    x ∈ hops l a ↔ ∃ q, l.passage a x.1 q ∧ x.2 = q.toList := by
  obtain ⟨hswitch, hexit⟩ := check2_passed h
  rw [mem_hops]
  constructor
  · rintro ⟨r, hr, ⟨b, hx, rfl⟩ | ⟨n, w, hx, hn, hm⟩⟩
    · exact ⟨none, ⟨r, hr, .inl ⟨hx, rfl⟩⟩, rfl⟩
    · rcases (mem_switchHops ..).1 hm with ⟨hk, rfl | rfl⟩ | ⟨hk, rfl⟩
      · exact ⟨some _, ⟨r, hr, .inr ⟨n, w, hx, hn, .inl ⟨hk, rfl, rfl⟩⟩⟩, rfl⟩
      · exact ⟨some _, ⟨r, hr, .inr ⟨n, w, hx, hn, .inr (.inl ⟨hk, rfl, rfl⟩)⟩⟩, rfl⟩
      · by_cases ha : a = w.straight
        · exact ⟨some ⟨n, .straight⟩, ⟨r, hr, .inr ⟨n, w, hx, hn, .inr (.inr (.inl ⟨hk, ha, rfl, rfl⟩))⟩⟩, by rw [if_pos ha]; rfl⟩
        · have hd : a = w.diverge := by
            by_contra hd
            exact hexit a ⟨r, hr, .inl ⟨n, hx, .inr ⟨w, hn, .inr ⟨hk, fun e => ha e.symm, fun e => hd e.symm⟩⟩⟩⟩
          exact ⟨some ⟨n, .diverge⟩, ⟨r, hr, .inr ⟨n, w, hx, hn, .inr (.inr (.inr ⟨hk, hd, rfl, rfl⟩))⟩⟩, by rw [if_neg ha]; rfl⟩
  · obtain ⟨b, qs⟩ := x
    rintro ⟨q, ⟨r, hr, ⟨hx, rfl⟩ | ⟨n, w, hx, hn, hw⟩⟩, rfl⟩
    · exact ⟨r, hr, .inl ⟨b, hx, rfl⟩⟩
    · refine ⟨r, hr, .inr ⟨n, w, hx, hn, (mem_switchHops ..).2 ?_⟩⟩
      rcases hw with ⟨hk, rfl, rfl⟩ | ⟨hk, rfl, rfl⟩ | ⟨hk, rfl, rfl, rfl⟩ | ⟨hk, ha, rfl, rfl⟩
      · exact .inl ⟨hk, .inl rfl⟩
      · exact .inl ⟨hk, .inr rfl⟩
      · exact .inr ⟨hk, by rw [if_pos rfl]; rfl⟩
      · have hne : a ≠ w.straight := fun e =>
          hswitch n ⟨w, hn, .inr (.inr (.inr (.inr (.inr (.inl (e.symm.trans ha))))))⟩
        exact .inr ⟨hk, by rw [if_neg hne]; rfl⟩

/-- Once check 2 passes, a passage is a hop. -/
theorem asHop_mem {l : Layout} (h : check2 l = none) (a : ZoneId) (x : ZoneId × Option Requirement) :
    asHop x ∈ hops l a ↔ l.passage a x.1 x.2 := by
  rw [mem_hops_passage h]
  constructor
  · rintro ⟨q, hp, e⟩
    have hq : x.2 = q := by simpa [asHop] using congrArg List.head? e
    rw [hq]
    exact hp
  · exact fun hp => ⟨x.2, hp, rfl⟩

/-- The paths along hops are those along passages to the first stoppable zone. -/
theorem hopPath_asHop {l : Layout} (h : check2 l = none) (a : ZoneId) (xs : List (ZoneId × Option Requirement)) :
    hopPath l a (xs.map asHop) ↔ l.path a xs ∧ (∃ x, xs.getLast? = some x ∧ l.stoppableZone x.1) ∧
      ∀ x ∈ xs.dropLast, l.runZone x.1 := by
  induction xs generalizing a with
  | nil => simp [hopPath]
  | cons x xs ih =>
    rw [List.map_cons, hopPath, asHop_mem h, Layout.path_cons, and_assoc]
    refine and_congr_right fun _ => ?_
    show (l.isStop x.1 = true ∧ xs.map asHop = []) ∨ (l.isStop x.1 = false ∧ hopPath l x.1 (xs.map asHop)) ↔ _
    cases xs with
    | nil => simp [hopPath, isStop_iff]
    | cons y ys =>
      rw [ih]
      simp only [List.map_cons, reduceCtorEq, and_false, false_or, List.getLast?_cons_cons, List.dropLast_cons_cons,
        List.mem_cons, forall_eq_or_imp]
      constructor
      · rintro ⟨hs, hp, hlast, hrun⟩
        have hd := hopPath_defined ((ih x.1).2 ⟨hp, hlast, hrun⟩)
        exact ⟨hp, hlast, (runZone_iff ..).2 ⟨hs, hd⟩, hrun⟩
      · rintro ⟨hp, hlast, hx, hrun⟩
        exact ⟨((runZone_iff ..).1 hx).1, hp, hlast, hrun⟩

/-- Once check 2 passes, every path along hops is one along passages. -/
theorem hopPath_eq_asHop {l : Layout} (h : check2 l = none) {a : ZoneId} {xs : List (ZoneId × List Requirement)}
    (hp : hopPath l a xs) : ∃ ys : List (ZoneId × Option Requirement), xs = ys.map asHop := by
  induction xs generalizing a with
  | nil => exact hp.elim
  | cons x xs ih =>
    obtain ⟨hx, hrest⟩ := hp
    obtain ⟨q, _, e⟩ := (mem_hops_passage h a x).1 hx
    have hq : x = asHop (x.1, q) := Prod.ext rfl e
    rcases hrest with ⟨_, rfl⟩ | ⟨_, hp⟩
    · exact ⟨[(x.1, q)], by rw [List.map_singleton, ← hq]⟩
    · obtain ⟨ys, rfl⟩ := ih hp
      exact ⟨(x.1, q) :: ys, by rw [List.map_cons, ← hq]⟩

/-- Once check 2 passes, the legs are the paths of up to five zones from a stoppable zone to the next (R14). -/
theorem mem_legSet_path {l : Layout} (h : check2 l = none) (g : Leg) : g ∈ legSet l ↔ ∃ xs, xs.length ≤ 5 ∧
    l.legPath g.start xs ∧ g.zones = xs.map (·.1) ∧ g.reqs = xs.filterMap (·.2) := by
  have hreqs : ∀ xs : List (ZoneId × Option Requirement), (xs.map asHop).flatMap (·.2) = xs.filterMap (·.2) := fun xs => by
    rw [List.filterMap_eq_flatMap_toList, List.flatMap_map]
    rfl
  have hzones : ∀ xs : List (ZoneId × Option Requirement), (xs.map asHop).map (·.1) = xs.map (·.1) := fun xs => by
    rw [List.map_map]
    rfl
  rw [mem_legSet]
  constructor
  · rintro ⟨hs, xs, hk, hp, hz, hr⟩
    obtain ⟨ys, rfl⟩ := hopPath_eq_asHop h hp
    rw [List.length_map] at hk
    exact ⟨ys, hk, ⟨hs, (hopPath_asHop h ..).1 hp⟩, hz.trans (hzones ys), hr.trans (hreqs ys)⟩
  · rintro ⟨ys, hk, ⟨hs, hp⟩, hz, hr⟩
    exact ⟨hs, ys.map asHop, by rw [List.length_map]; exact hk, (hopPath_asHop h ..).2 hp, hz.trans (hzones ys).symm,
      hr.trans (hreqs ys).symm⟩

/-! ### No leg is longer than five zones -/

/-- A train passes from a zone to one that follows it. -/
theorem passage_follows {l : Layout} {a b : ZoneId} {q : Option Requirement} (h : l.passage a b q) : l.follows a b := by
  obtain ⟨r, hr, ⟨hx, _⟩ | ⟨n, w, hx, hn, hw⟩⟩ := h
  · exact ⟨r, hr, .inl hx⟩
  · refine ⟨r, hr, .inr ⟨n, w, hx, hn, ?_⟩⟩
    rcases hw with ⟨hk, hb, _⟩ | ⟨hk, hb, _⟩ | ⟨hk, _, hb, _⟩ | ⟨hk, _, hb, _⟩
    · exact .inl ⟨hk, .inl hb⟩
    · exact .inl ⟨hk, .inr hb⟩
    · exact .inr ⟨hk, hb⟩
    · exact .inr ⟨hk, hb⟩

/-- The zones of a path follow each other. -/
theorem path_isChain {l : Layout} {a : ZoneId} {xs : List (ZoneId × Option Requirement)} (h : l.path a xs) :
    (a :: xs.map (·.1)).IsChain l.follows := by
  induction xs generalizing a with
  | nil => exact List.isChain_singleton a
  | cons x xs ih => exact List.isChain_cons_cons.2 ⟨passage_follows h.1, ih h.2⟩

/-- A chain of RUN zones that comes back to `z0` is found. -/
theorem returnsTo_of_isChain {l : Layout} {z0 z : ZoneId} {ys : List ZoneId} {k : Nat}
    (hc : (z :: (ys ++ [z0])).IsChain l.follows) (hr : ∀ y ∈ ys, l.runZone y) (hk : ys.length < k) :
    returnsTo l z0 k z = true := by
  induction ys generalizing z k with
  | nil =>
    obtain ⟨k, rfl⟩ := Nat.exists_eq_add_one_of_ne_zero (Nat.ne_of_gt hk)
    exact (returnsTo_succ ..).2 (.inl (List.isChain_cons_cons.1 hc).1)
  | cons y ys ih =>
    obtain ⟨k, rfl⟩ := Nat.exists_eq_add_one_of_ne_zero (Nat.ne_of_gt (Nat.zero_lt_of_lt hk))
    obtain ⟨hzy, hc⟩ := List.isChain_cons_cons.1 hc
    obtain ⟨hy, hr⟩ := List.forall_mem_cons.1 hr
    exact (returnsTo_succ ..).2 (.inr ⟨y, hy, hzy, ih hc hr (Nat.lt_of_succ_lt_succ hk)⟩)

/-- A list with a member twice, split at two places where it stands. -/
theorem exists_repeated {α : Type} {xs : List α} (h : ¬ xs.Nodup) : ∃ x as bs cs, xs = as ++ x :: (bs ++ x :: cs) := by
  induction xs with
  | nil => exact absurd List.nodup_nil h
  | cons x xs ih =>
    by_cases hx : x ∈ xs
    · obtain ⟨bs, cs, rfl⟩ := List.append_of_mem hx
      exact ⟨x, [], bs, cs, rfl⟩
    · obtain ⟨y, as, bs, cs, rfl⟩ := ih fun hn => h (List.nodup_cons.2 ⟨hx, hn⟩)
      exact ⟨y, x :: as, bs, cs, rfl⟩

/-- Once check 4 passes, a chain of at most five RUN zones has none twice. -/
theorem nodup_of_check4 {l : Layout} (h : check4 l = none) {ys : List ZoneId} (hc : ys.IsChain l.follows)
    (hr : ∀ y ∈ ys, l.runZone y) (hlen : ys.length ≤ 5) : ys.Nodup := by
  by_contra hn
  obtain ⟨z, as, bs, cs, rfl⟩ := exists_repeated hn
  have hz : l.runZone z := hr z (by simp)
  have hcycle : returnsTo l z runBound z = true := by
    refine returnsTo_of_isChain (ys := bs)
      (List.IsChain.left_of_append (l₂ := cs) (by simpa using hc.right_of_append)) (fun y hy => hr y (by simp [hy])) ?_
    simp only [List.length_append, List.length_cons] at hlen
    show bs.length < 5
    omega
  unfold check4 at h
  rw [Option.map_eq_none_iff, List.find?_eq_none] at h
  have hd := (defines_and_isRun l z (returnsTo l z runBound z)).2 ⟨hz, hcycle⟩
  exact h z (List.mem_filter.2 ⟨List.mem_finRange z, hd.1⟩) hd.2

/-- Once checks 3 and 4 pass, no path over RUN zones to a stoppable zone has more than five zones (R14). -/
theorem legPath_length {l : Layout} (h3 : check3 l = none) (h4 : check4 l = none) {a : ZoneId}
    {xs : List (ZoneId × Option Requirement)} (hp : l.legPath a xs) : xs.length ≤ 5 := by
  by_contra hlen
  obtain ⟨_, hpath, _, hrun⟩ := hp
  have hchain := path_isChain hpath
  rcases xs with _ | ⟨v, _ | ⟨w, _ | ⟨x, _ | ⟨y, _ | ⟨z, _ | ⟨u, rest⟩⟩⟩⟩⟩⟩
  iterate 6 exact hlen (by simp)
  have hr : ∀ b ∈ [v.1, w.1, x.1, y.1, z.1], l.runZone b := fun b hb => by
    obtain ⟨c, hc, rfl⟩ := List.mem_map.1 (show b ∈ [v, w, x, y, z].map (·.1) from hb)
    exact hrun c (List.mem_append_left (u :: rest).dropLast hc)
  have hc : [v.1, w.1, x.1, y.1, z.1].IsChain l.follows :=
    List.IsChain.left_of_append (l₂ := u.1 :: rest.map Prod.fst) hchain.tail
  obtain ⟨hvw, hc1⟩ := List.isChain_cons_cons.1 hc
  obtain ⟨hwx, hc2⟩ := List.isChain_cons_cons.1 hc1
  obtain ⟨hxy, hc3⟩ := List.isChain_cons_cons.1 hc2
  obtain ⟨hyz, _⟩ := List.isChain_cons_cons.1 hc3
  exact (check3_lowest l).1.1 h3 v.1
    ⟨w.1, x.1, y.1, z.1, nodup_of_check4 h4 hc hr (Nat.le_refl 5), hr, hvw, hwx, hxy, hyz⟩

/-! ### The order of the leg set -/

/-- Two legs part at a switch, the first to STRAIGHT and the second to DIVERGE. -/
def partAt (g h : Leg) : Prop := ∃ (n : SwitchId) (qs rs ts : List Requirement),
  g.reqs = qs ++ { switch := n, position := .straight } :: rs ∧ h.reqs = qs ++ { switch := n, position := .diverge } :: ts

/-- Two hops from one zone go through a DIVERGE switch, STRAIGHT first. -/
theorem hops_pairwise (l : Layout) (a : ZoneId) : (hops l a).Pairwise fun x y => ∃ n : SwitchId,
    x.2 = [{ switch := n, position := .straight }] ∧ y.2 = [{ switch := n, position := .diverge }] := by
  unfold hops
  split
  · exact List.Pairwise.nil
  · exact List.pairwise_singleton ..
  · next n _ =>
    split
    · exact List.Pairwise.nil
    · next w _ =>
      unfold switchHops
      cases w.kind with
      | diverge => exact List.pairwise_pair.2 ⟨n, rfl, rfl⟩
      | merge => exact List.pairwise_singleton ..

/-- The legs behind one hop need what the hop needs first. -/
theorem legsBehind_reqs {l : Layout} {s : ZoneId} {k : Nat} {zs : List ZoneId} {qs : List Requirement}
    {x : ZoneId × List Requirement} {g : Leg}
    (h : g ∈ if l.isStop x.1 then [{ start := s, zones := zs ++ [x.1], reqs := qs ++ x.2 }]
      else legsOn l s k x.1 (zs ++ [x.1]) (qs ++ x.2)) : ∃ rs, g.reqs = qs ++ (x.2 ++ rs) := by
  split at h
  · rw [List.mem_singleton] at h
    exact ⟨[], by rw [h, List.append_nil]⟩
  · obtain ⟨xs, _, _, rfl⟩ := (mem_legsOn ..).1 h
    exact ⟨xs.flatMap (·.2), List.append_assoc ..⟩

/-- The legs that go on from a zone stand in the order STRAIGHT before DIVERGE. -/
theorem legsOn_pairwise (l : Layout) (s : ZoneId) (k : Nat) (a : ZoneId) (zs : List ZoneId) (qs : List Requirement) :
    (legsOn l s k a zs qs).Pairwise partAt := by
  induction k generalizing a zs qs with
  | zero => exact List.Pairwise.nil
  | succ k ih =>
    rw [legsOn, List.pairwise_flatMap]
    refine ⟨fun x _ => ?_, (hops_pairwise l a).imp ?_⟩
    · split
      · exact List.pairwise_singleton ..
      · exact ih ..
    · rintro x y ⟨n, hx, hy⟩ g hg h hh
      obtain ⟨rs, hrs⟩ := legsBehind_reqs hg
      obtain ⟨ts, hts⟩ := legsBehind_reqs hh
      rw [hx] at hrs
      rw [hy] at hts
      exact ⟨n, qs, rs, ts, hrs, hts⟩

/-- Of two legs of the leg set from one zone the earlier takes STRAIGHT where they part (R14). -/
theorem legSet_pairwise (l : Layout) : (legSet l).Pairwise fun g h => g.start = h.start → partAt g h := by
  have hstart : ∀ {a g}, g ∈ legsOn l a runBound a [] [] → g.start = a := fun hg => by
    obtain ⟨xs, _, _, rfl⟩ := (mem_legsOn ..).1 hg
    rfl
  rw [legSet, List.pairwise_flatMap]
  refine ⟨fun a _ => List.Pairwise.imp (S := fun g h => g.start = h.start → partAt g h) (fun hp _ => hp)
    (legsOn_pairwise l a _ a [] []), ?_⟩
  refine ((List.nodup_finRange 32).filter _).imp fun {a b} hab g hg h hh he => ?_
  exact absurd ((hstart hg).symm.trans (he.trans (hstart hh))) hab

/-! ### The leg that joins two zones -/

/-- The first leg of the layout from one zone to the other (R14). -/
theorem legBetween_some (l : Layout) (a b : ZoneId) (g : Leg) : legBetween l a b = some g ↔
    (g.start = a ∧ g.zones.getLast? = some b) ∧
      ∃ xs ys, l.legs = xs ++ g :: ys ∧ ∀ x ∈ xs, ¬ (x.start = a ∧ x.zones.getLast? = some b) := by
  simp only [legBetween, List.find?_eq_some_iff_append, Bool.and_eq_true, decide_eq_true_eq, Bool.not_eq_true',
    Bool.and_eq_false_iff, decide_eq_false_iff_not, not_and_or]

theorem legBetween_none (l : Layout) (a b : ZoneId) :
    legBetween l a b = none ↔ ∀ g ∈ l.legs, ¬ (g.start = a ∧ g.zones.getLast? = some b) := by
  simp only [legBetween, List.find?_eq_none, Bool.and_eq_true, decide_eq_true_eq]

end Sys2Proof.Machine

namespace Sys2Proof.Proofs
open Sys2Proof.Machine

/-- Settles O18: the checks by `firstFailed` and a lemma each, the leg set by `mem_legSet` and its paths. -/
theorem legsAndCommitChecks : Obligations.LegsAndCommitChecks := by
  refine ⟨fun l => ?_, fun l => ?_, fun l g => legSet_zones,
    fun l h => ⟨mem_legSet_path h, fun h3 h4 a xs => legPath_length h3 h4⟩, legSet_pairwise,
    fun l a b => ⟨legBetween_none l a b, legBetween_some l a b⟩⟩
  · simp only [commitChecks_eq]
    refine ⟨firstFailed_none .., fun k x => ?_⟩
    rw [Nat.add_comm]
    exact firstFailed_some ..
  · exact ⟨check1_few, check1_lowest, check2_switch l, check2_zone, check3_lowest l, check4_lowest l, check5_lowest l,
      check6_lowest l, check7_lowest l⟩

end Sys2Proof.Proofs
end

section
/-! SUPPORT. What a step can do, said once: the starts, the loads, COMMIT and UNCOMMIT, the tick, the levels of inputs, and the
events on the track, each with what is known of the state it takes effect in. -/

namespace Sys2Proof.Machine

/-! ### The events on the track -/

/-- An accepted DISPATCH or MOVE (R116, R123): the stalled flag cleared, and a formation occasion of the train at rest. -/
def legOrder (t : TrainId) (o : Origin) (wait : Option Nat) (e : Env) (w : Work) : Work :=
  closeEval e (formAtRest e t o wait (clearStalled t w))

/-- What an order or an event makes of the track, with what its examination has found. -/
inductive Event (s : State) : (Env → Work → Work) → Prop
  | operating (h : s.track.mode ≠ .unconfigured ∧ s.track.mode ≠ .estopped) : Event s enterOperating
  | standby (h : s.track.mode ≠ .unconfigured ∧ s.track.mode ≠ .estopped) : Event s enterStandby
  | halted (h : s.track.mode ≠ .unconfigured ∧ s.track.mode ≠ .estopped) : Event s enterHalted
  | place {t z tag q} (hc : s.layout.committed = true) (ht : (s.track.trains[t]).unplaced = true)
      (hz : placeable (s.track.zoneState z) = true) (hq : q.1 = .stored ∨ q.1 = .standing) : Event s (place t z tag q)
  | assign {t d} (hc : s.layout.committed = true) (ht : (s.track.trains[t]).state = .stored) : Event s (assign t d)
  | retireStore {t : TrainId} (ht : (s.track.trains[t]).state = .standing ∨ (s.track.trains[t]).state = .claiming) :
      Event s (retireStore t)
  | retireRemove {t : TrainId} (ht : (s.track.trains[t]).state = .stored ∨ (s.track.trains[t]).state = .lost) :
      Event s (retireRemove t)
  | assertEmpty {z} (hz : doubtful (s.track.zoneState z) = true) : Event s (assertEmpty z)
  | proceed {t : TrainId} (ht : (s.track.trains[t]).state = .standing) : Event s (proceed t)
  | breakLoop (t : TrainId) : Event s (fun _ w => w.modifyTrain t Train.breakLoop)
  | resetSwitch (n : SwitchId) : Event s (resetSwitch n)
  | legOrder {t : TrainId} (o wait) (ht : (s.track.trains[t]).state = .standing) : Event s (legOrder t o wait)
  | cancelDispatch {t z} (h : dispatchPhase s.track z = some (.waiting, t)) : Event s (cancelDispatch t z)
  | requestSection {p : PortId} (zs wait) (h : s.track.sections[p] = .none) : Event s (requestSection p zs wait)
  | cancelSection {p : PortId} (h : s.track.sections[p] = .claimed) : Event s (cancelSection p)
  | takeReturn {p : PortId} {x : HeldSection} (ds) (h : s.track.sections[p] = .held x) : Event s (takeReturn p x ds)
  | setHold {p : PortId} {x : HeldSection} (z y) (h : s.track.sections[p] = .held x) : Event s (setHold p x z y)
  | moveFor {p : PortId} (n q) (hm : s.track.mode ≠ .estopped) : Event s (moveFor p n q)
  | lapse (p c) : Event s (lapseTrack p c)
  | resumed (p : PortId) : Event s (fun _ w => w.post [0] .leaseResumed (.port p))
  | entry (z a) : Event s (fun e w => entryChange e z a w)
  | stop (z a) : Event s (fun e w => stopChange e z a w)
  | feedback (z) : Event s (fun e w => feedbackChange e z w)
  | ready (r a) : Event s (fun e w => readyChange e r a w)
  | position (n) : Event s (fun e w => positionChange e n w)
  | arrival (n) : Event s (fun e w => closeEvent e (arrive n w))
  | gap (z) : Event s (fun e w => gapEnds e z w)
  | limit (z) : Event s (fun e w => limitEnds e z w)
  | confirm (z) : Event s (fun e w => confirmEnds e z w)
  | clear : Event s clearEnds
  | move (n) : Event s (fun e w => attemptEnds e n w)
  | settle (z) : Event s (fun e w => settleEnds e z w)
  | dwell (t) : Event s (fun e w => dwellEnds e t w)
  | window (t) : Event s (fun e w => windowEnds e t w)
  | travel (t) : Event s (fun e w => travelEnds e t w)
  | wait (k) : Event s (fun e w => waitEnds e k w)
  | sample : Event s sampleZones

/-! ### Reads and loads -/

theorem performReadZone_state (n : Nat) (s : State) : (performReadZone n s).1 = s := by
  unfold performReadZone
  split
  · rfl
  · split <;> rfl

theorem performReadTrain_state (n k : Nat) (s : State) : (performReadTrain n k s).1 = s := by
  unfold performReadTrain; split <;> rfl

theorem performReadSwitch_state (n : Nat) (s : State) : (performReadSwitch n s).1 = s := by
  unfold performReadSwitch
  split
  · rfl
  · split <;> rfl

theorem performReadClaim_state (n k : Nat) (s : State) : (performReadClaim n k s).1 = s := by
  unfold performReadClaim; dsimp only; split <;> rfl

theorem performReadStep_state (n m : Nat) (s : State) : (performReadStep n m s).1 = s := by
  unfold performReadStep; split <;> rfl

section
variable {l x : Layout}

/-- A load leaves the layout's commit state and its legs as they are (R2). -/
theorem withZone_keeps {n f} (h : withZone l n f = some x) : x.committed = l.committed ∧ x.legs = l.legs := by
  unfold withZone at h
  split at h
  · cases h; exact ⟨rfl, rfl⟩
  · obtain ⟨r, -, rfl⟩ := Option.map_eq_some_iff.1 h; exact ⟨rfl, rfl⟩
  · cases h

theorem withSwitch_keeps {n f} (h : withSwitch l n f = some x) : x.committed = l.committed ∧ x.legs = l.legs := by
  unfold withSwitch at h
  split at h
  · cases h; exact ⟨rfl, rfl⟩
  · obtain ⟨r, -, rfl⟩ := Option.map_eq_some_iff.1 h; exact ⟨rfl, rfl⟩
  · cases h

theorem withRole_keeps {n r} (h : withRole l n r = some x) : x.committed = l.committed ∧ x.legs = l.legs := by
  unfold withRole at h
  split at h
  · cases h; exact ⟨rfl, rfl⟩
  · cases h

theorem withGlobals_keeps {b c k} (h : withGlobals l b c k = some x) : x.committed = l.committed ∧ x.legs = l.legs := by
  unfold withGlobals at h
  split at h
  · cases h; exact ⟨rfl, rfl⟩
  · cases h

end

/-! ### Properties that every step keeps -/

/-- A property of layout, inputs and track alone that each thing a step can do keeps. -/
structure StepRules (P : State → Prop) : Prop where
  frame : ∀ {s t : State}, t.layout = s.layout → t.inputs = s.inputs → t.track = s.track → P s → P t
  cold : ∀ s, P s → P (coldStart s)
  warm : ∀ s, P s → P (warmStart s)
  load : ∀ (s : State) (l : Layout), s.layout.committed = false → l.committed = false → l.legs = s.layout.legs → P s →
    P { s with layout := l }
  commit : ∀ s : State, s.layout.committed = false → s.track.mode ≠ .estopped → commitChecks s.layout = none → P s →
    P (commitState s)
  uncommit : ∀ s : State, s.layout.committed = true → s.track.mode = .standby → anyTrain s.track = false → anySection s.track = false → P s →
    P (uncommitState s)
  input : ∀ (s : State) (i : InputId) (a : Bool), (∀ k, i = .estop k → inputSeen s.layout s.inputs i = a) → P s →
    P (s.setInput i a)
  estop : ∀ (s : State) (k : EstopId) (a : Bool), inputSeen s.layout s.inputs (.estop k) ≠ a → P s →
    P ((s.setInput (.estop k) a).run (estopChange a))
  tick : ∀ s : State, dueEvents s = [] → P s → P s.tick
  event : ∀ (s : State) (f : Env → Work → Work), Event s f → P s → P (s.run f)

namespace StepRules

variable {P : State → Prop} (h : StepRules P)
include h

theorem modifyPort {s : State} (hs : P s) (p : PortId) (f : Port → Port) : P (s.modifyPort p f) :=
  h.frame (State.modifyPort_layout s p f) (State.modifyPort_inputs s p f) (State.modifyPort_track s p f) hs

/-! ### Commands -/

section
variable {s : State} (hs : P s) (p : PortId)
include hs

theorem loadLayout (l : Option Layout) (hl : ∀ x, l = some x → x.committed = s.layout.committed ∧ x.legs = s.layout.legs) :
    P (loadLayout p l s).1 := by
  unfold Machine.loadLayout
  split
  · exact hs
  · next hr =>
    have hc : s.layout.committed = false := by
      unfold loadRefusal at hr
      split at hr
      · cases hr
      · split at hr
        · cases hr
        · next hc => exact eq_false_of_ne_true hc
    split
    · exact hs
    · next x =>
      obtain ⟨h1, h2⟩ := hl x rfl
      exact h.load s x hc (h1.trans hc) h2 hs

theorem performCommit : P (performCommit p s).1 := by
  by_cases hl : s.loadable p
  · by_cases hm : s.track.mode = .estopped
    · rw [performCommit_mode hl hm]; exact hs
    · rw [performCommit_checked hl hm]
      split
      · exact hs
      · next hc => exact h.commit s hl.2 hm hc hs
  · have hr : ∃ r, loadRefusal p s = some r := by
      unfold loadRefusal
      unfold State.loadable at hl
      by_cases hp : p = 0
      · have hc : s.layout.committed = true := by simpa [hp] using hl
        exact ⟨.locked, by simp [hp, hc]⟩
      · exact ⟨.role, by simp [hp]⟩
    obtain ⟨r, hr⟩ := hr
    unfold Machine.performCommit
    rw [hr]
    exact hs

theorem performUncommit : P (performUncommit p s).1 := by
  unfold Machine.performUncommit
  split
  · exact hs
  · next hr =>
    unfold uncommitRefusal at hr
    repeat' split at hr
    all_goals try cases hr
    next _ hc hm ht _ =>
      simp only [Bool.or_eq_true, not_or, Bool.not_eq_true] at ht
      exact h.uncommit s (by simpa using hc) (not_not.1 hm) ht.1 ht.2 hs

theorem setRoute (r : RouteId) (x : Route) : P (s.setRoute r x) := h.frame (s := s) rfl rfl rfl hs

theorem performSetMask (m) : P (performSetMask p m s).1 := by
  unfold Machine.performSetMask
  split
  · exact hs
  · exact h.modifyPort hs p fun r => { r with mask := byteOf m }

theorem performLoadStep (n m f) : P (performLoadStep p n m f s).1 := by
  unfold Machine.performLoadStep
  split
  · exact hs
  · split
    · exact hs
    · split
      · exact hs
      · exact h.setRoute hs _ _

theorem performClearRoute (n) : P (performClearRoute p n s).1 := by
  unfold Machine.performClearRoute
  split
  · exact hs
  · split
    · exact hs
    · split
      · exact hs
      · exact h.setRoute hs _ _

theorem performSealRoute (n c b) : P (performSealRoute p n c b s).1 := by
  unfold Machine.performSealRoute
  split
  · exact hs
  · split
    · exact hs
    · split
      · exact hs
      · split
        · exact hs
        · split
          · unfold sealDraft
            split
            · exact hs
            · exact h.setRoute hs _ _
          · exact hs
          · exact hs

theorem performSetMode (n) : P (performSetMode p n s).1 := by
  unfold Machine.performSetMode
  split
  · exact hs
  · split
    · exact hs
    · split
      · exact hs
      · next hm =>
        rw [not_or] at hm
        split
        · exact hs
        · unfold tryMode
          split
          · split
            · exact hs
            · exact h.event s _ (.operating hm) hs
          · split
            · exact hs
            · exact h.event s _ (.standby hm) hs
          · exact h.event s _ (.halted hm) hs
          · exact hs
          · exact hs

theorem performRestart : P (performRestart p s).1 := by
  unfold Machine.performRestart
  split
  · exact hs
  · exact h.warm s hs

theorem performSetLease (n c u) : P (performSetLease p n c u s).1 := by
  unfold Machine.performSetLease
  split
  · exact hs
  · split
    · split
      · exact h.modifyPort hs _ _
      · exact hs
    · exact hs

theorem lapse (c : LapseCause) : P (lapse p c s) := by
  unfold Machine.lapse
  split
  · exact hs
  · exact h.event _ _ (.lapse p c) (h.modifyPort hs _ _)

theorem performForceLapse (n) : P (performForceLapse p n s).1 := by
  unfold Machine.performForceLapse
  split
  · exact hs
  · split
    · exact hs
    · exact h.lapse hs _ _

omit h hs in
/-- Past their examination the supervisor's orders find a committed layout. -/
theorem committed_of_orderRefusal (hr : orderRefusal p s = none) : s.layout.committed = true := by
  unfold orderRefusal at hr
  split at hr
  · cases hr
  · split at hr
    · cases hr
    · next hc => simpa using hc

theorem performPlaceTrain (n z g o) : P (performPlaceTrain p n z g o s).1 := by
  unfold Machine.performPlaceTrain
  split
  · exact hs
  · next hr =>
    have hc := committed_of_orderRefusal p hr
    split
    · next t z _ _ _ _ =>
      unfold tryPlace
      split
      · exact hs
      · next hok =>
        simp only [Bool.not_eq_false, Bool.and_eq_true] at hok
        split
        · exact hs
        · next q hq =>
          refine h.event s _ (.place hc hok.1.1 hok.1.2 ?_) hs
          unfold placement at hq
          split at hq
          · cases hq; exact .inl rfl
          · split at hq
            · cases hq; exact .inr rfl
            · cases hq
          · split at hq
            · cases hq
            · obtain ⟨k, -, rfl⟩ := Option.map_eq_some_iff.1 hq
              exact .inr rfl
    · exact hs

theorem performAssignRoute (n r m) : P (performAssignRoute p n r m s).1 := by
  unfold Machine.performAssignRoute
  split
  · exact hs
  · next hr =>
    have hc := committed_of_orderRefusal p hr
    split
    · unfold tryAssign
      split
      · exact hs
      · next hst =>
        rw [not_or, not_not] at hst
        split
        · exact hs
        · exact h.event s _ (.assign hc hst.1) hs
    · exact hs

theorem tryRetire (t : TrainId) (d : Disposition) : P (tryRetire t d s).1 := by
  unfold Machine.tryRetire
  split
  · next e => exact h.event s _ (.retireStore (.inl e)) hs
  · next e => exact h.event s _ (.retireStore (.inr e)) hs
  · next e => exact h.event s _ (.retireRemove (.inl e)) hs
  · next e => exact h.event s _ (.retireRemove (.inr e)) hs
  · exact hs

theorem performRetireTrain (n d) : P (performRetireTrain p n d s).1 := by
  unfold Machine.performRetireTrain
  split
  · exact hs
  · split
    · exact h.tryRetire hs _ _
    · exact hs

theorem performAssertZone (n d) : P (performAssertZone p n d s).1 := by
  unfold Machine.performAssertZone
  split
  · exact hs
  · split
    · exact hs
    · split
      · exact hs
      · split
        · next ha =>
          simp only [assertable, Bool.and_eq_true] at ha
          exact h.event s _ (.assertEmpty ha.1.1) hs
        · exact hs

theorem performProceed (n) : P (performProceed p n s).1 := by
  unfold Machine.performProceed
  split
  · exact hs
  · split
    · exact hs
    · split
      · exact hs
      · split
        · next hm =>
          simp only [mayProceed, Bool.and_eq_true, decide_eq_true_eq] at hm
          exact h.event s _ (.proceed hm.1.1) hs
        · exact hs

theorem performBreakLoop (n) : P (performBreakLoop p n s).1 := by
  unfold Machine.performBreakLoop
  split
  · exact hs
  · split
    · exact hs
    · split
      · exact hs
      · exact h.event s _ (.breakLoop _) hs

theorem performResetSwitch (n) : P (performResetSwitch p n s).1 := by
  unfold Machine.performResetSwitch
  split
  · exact hs
  · split
    · exact hs
    · split
      · exact hs
      · split
        · exact hs
        · exact h.event s _ (.resetSwitch _) hs

theorem orderLeg {t : TrainId} (ht : (s.track.trains[t]).state = .standing) (o wait) : P (orderLeg t o wait s).1 := by
  have he := h.event s _ (.legOrder o wait ht) hs
  unfold State.run legOrder formAtRest at he
  unfold Machine.orderLeg
  dsimp only
  split
  · exact hs
  · next d hd =>
    rw [hd] at he
    dsimp only at he
    split
    · next hf => rw [hf] at he; exact he
    · next hf => rw [hf] at he; exact he
    · exact hs

omit h hs in
/-- A train found standing for an order is STANDING. -/
theorem standing_of_standingFor {e : Env} {w : Track} {z : ZoneId} {a : StepAction} {t : TrainId}
    (ht : standingFor e w z a = some t) : (w.trains[t]).state = .standing := by
  unfold standingFor at ht
  split at ht
  · cases ht
  · split at ht
    · next hst => cases ht; exact hst.1
    · cases ht

theorem performDispatch (mark n) : P (performDispatch p mark n s).1 := by
  unfold Machine.performDispatch
  split
  · exact hs
  · split
    · exact hs
    · split
      · unfold tryDispatch
        split
        · exact hs
        · split
          · exact hs
          · split
            · exact hs
            · next ht =>
              split
              · exact h.orderLeg hs (standing_of_standingFor ht) _ _
              · exact hs
      · exact hs

theorem performCancelDispatch (n) : P (performCancelDispatch p n s).1 := by
  unfold Machine.performCancelDispatch
  split
  · exact hs
  · split
    · exact hs
    · split
      · unfold tryCancel
        split
        · next hd => exact h.event s _ (.cancelDispatch hd) hs
        · exact hs
        · exact hs
        · exact hs
      · exact hs

theorem performMove (mark n) : P (performMove p mark n s).1 := by
  unfold Machine.performMove
  split
  · exact hs
  · split
    · exact hs
    · split
      · unfold tryMove
        split
        · exact hs
        · split
          · exact hs
          · split
            · exact hs
            · next ht => exact h.orderLeg hs (standing_of_standingFor ht) _ _
      · exact hs

theorem performRequestSection (mark zs x) : P (performRequestSection p mark zs x s).1 := by
  unfold Machine.performRequestSection
  split
  · exact hs
  · split
    · exact hs
    · unfold tryRequest
      split
      · split
        · exact hs
        · next hn =>
          split
          · exact hs
          · exact h.event s _ (.requestSection _ _ (not_not.1 hn)) hs
      · exact hs

theorem performCancelSection : P (performCancelSection p s).1 := by
  unfold Machine.performCancelSection
  split
  · exact hs
  · split
    · next hc => exact h.event s _ (.cancelSection hc) hs
    · exact hs
    · exact hs

omit h hs in
/-- A port's held section is its section record. -/
theorem heldSection_some {w : Track} {p : PortId} {x : HeldSection} (hx : w.heldSection p = some x) :
    w.sections[p] = .held x := by
  unfold Track.heldSection at hx
  split at hx
  · next hy => cases hx; exact hy
  · cases hx
  · cases hx

theorem performReturnSection (ds) : P (performReturnSection p ds s).1 := by
  unfold Machine.performReturnSection
  split
  · exact hs
  · split
    · exact hs
    · next hx =>
      split
      · exact hs
      · exact h.event s _ (.takeReturn _ (heldSection_some hx)) hs

theorem performSetHold (n r) : P (performSetHold p n r s).1 := by
  unfold Machine.performSetHold
  split
  · exact hs
  · split
    · unfold trySetHold
      split
      · next hx =>
        split
        · exact hs
        · split
          · exact hs
          · exact h.event s _ (.setHold _ _ (heldSection_some hx)) hs
      · exact hs
    · exact hs

theorem performMoveSwitch (n q) : P (performMoveSwitch p n q s).1 := by
  unfold Machine.performMoveSwitch
  split
  · exact hs
  · split
    · unfold tryMoveSwitch
      split
      · exact hs
      · split
        · exact hs
        · split
          · exact hs
          · next hm =>
            split
            · exact hs
            · split
              · exact hs
              · exact h.event s _ (.moveFor _ _ hm) hs
    · exact hs

/-- A command keeps the property, by its rule. -/
theorem perform (mark : Bool) (c : Command) : P (perform p mark c s).1 := by
  cases c with
  | ping => exact hs
  | readStatus => exact h.modifyPort hs p _
  | readZone z => exact (performReadZone_state z s).symm ▸ hs
  | readTrain t k => exact (performReadTrain_state t k s).symm ▸ hs
  | readSwitch n => exact (performReadSwitch_state n s).symm ▸ hs
  | readClaim i k => exact (performReadClaim_state i k s).symm ▸ hs
  | readStep r k => exact (performReadStep_state r k s).symm ▸ hs
  | setMask m => exact h.performSetMask hs p m
  | loadZone z f => exact h.loadLayout hs p _ (fun x hx => withZone_keeps hx)
  | loadSwitch n f => exact h.loadLayout hs p _ (fun x hx => withSwitch_keeps hx)
  | loadPort q r => exact h.loadLayout hs p _ (fun x hx => withRole_keeps hx)
  | loadGlobals b c l => exact h.loadLayout hs p _ (fun x hx => withGlobals_keeps hx)
  | commit => exact h.performCommit hs p
  | uncommit => exact h.performUncommit hs p
  | loadStep r k f => exact h.performLoadStep hs p r k f
  | sealRoute r n w => exact h.performSealRoute hs p r n w
  | clearRoute r => exact h.performClearRoute hs p r
  | setMode m => exact h.performSetMode hs p m
  | restart => exact h.performRestart hs p
  | setLease q n u => exact h.performSetLease hs p q n u
  | forceLapse q => exact h.performForceLapse hs p q
  | placeTrain t z g o => exact h.performPlaceTrain hs p t z g o
  | assignRoute t r k => exact h.performAssignRoute hs p t r k
  | retireTrain t d => exact h.performRetireTrain hs p t d
  | assertZone z d => exact h.performAssertZone hs p z d
  | proceed t => exact h.performProceed hs p t
  | breakLoop t => exact h.performBreakLoop hs p t
  | resetSwitch n => exact h.performResetSwitch hs p n
  | dispatch z => exact h.performDispatch hs p mark z
  | cancelDispatch z => exact h.performCancelDispatch hs p z
  | move z => exact h.performMove hs p mark z
  | requestSection zs x => exact h.performRequestSection hs p mark zs x
  | cancelSection => exact h.performCancelSection hs p
  | returnSection ds => exact h.performReturnSection hs p ds
  | setHold z r => exact h.performSetHold hs p z r
  | moveSwitch n q => exact h.performMoveSwitch hs p n q

/-! ### Ports and frames -/

theorem runHead : P (runHead p s) := by
  unfold Machine.runHead
  split
  · exact hs
  · next c rest _ =>
    split
    · unfold executeHead
      refine h.modifyPort ?_ _ _
      have hm := h.modifyPort hs p fun r => { r with commands := rest }
      unfold answer
      split
      · exact hm
      · exact h.perform hm p _ _
    · exact hs

theorem submit (c : Command) : P (submit p c s) := by
  unfold Machine.submit
  split
  · exact h.runHead (h.modifyPort hs _ _) p
  · exact hs

theorem takeFrame (f : TakenFrame) : P (takeFrame p f s) := by
  unfold Machine.takeFrame
  refine h.runHead ?_ p
  unfold resumeNotice
  have hm := h.modifyPort hs p (Port.takeFrame (frameCommand f))
  split
  · exact h.event _ _ (.resumed p) hm
  · exact hm

theorem serveCommand (bs) : P (serveCommand p bs s) := by
  unfold Machine.serveCommand releaseCommand
  have hm := h.modifyPort hs p (Port.openFrame (shiftedOut bs.length (s.statusOf p) []))
  split
  · exact hm
  · split
    · exact h.takeFrame hm p _
    · exact h.modifyPort hm p _

theorem serveRead (n) : P (serveRead p n s) := by
  unfold Machine.serveRead openRecord
  dsimp only
  split
  · exact h.runHead (h.modifyPort (h.modifyPort hs _ _) _ _) p
  · exact h.modifyPort (h.modifyPort hs _ _) p _

theorem serveRepeat (n) : P (serveRepeat p n s) := by
  unfold Machine.serveRepeat openRecord
  dsimp only
  split
  · exact h.modifyPort hs _ _
  · exact h.modifyPort (h.modifyPort hs _ _) p _

theorem serveFrame (bs) : P (serveFrame p bs s) := by
  unfold Machine.serveFrame
  split
  · split
    · exact h.serveRead hs p _
    · split
      · exact h.serveRepeat hs p _
      · exact h.serveCommand hs p _
  · exact h.serveCommand hs p _

omit p

/-! ### Events -/

/-- A change of an input other than an ESTOP line. -/
theorem changeInput (i : InputId) (a : Bool) (hi : ∀ k, i ≠ .estop k) {f : Env → Work → Work}
    (hf : Event (s.setInput i a) f) : P (changeInput i a f s) := by
  have hm := h.input s i a (fun k hk => absurd hk (hi k)) hs
  unfold Machine.changeInput
  split
  · exact hm
  · exact h.event _ _ hf hm

theorem estopLine (k : EstopId) (a : Bool) : P (Machine.changeInput (.estop k) a (estopChange a) s) := by
  unfold Machine.changeInput
  split
  · next ha => exact h.input s _ a (fun j hj => by cases hj; exact ha) hs
  · next ha => exact h.estop s k a ha hs

theorem moveArrives (n : SwitchId) : P (moveArrives n s) := by
  unfold Machine.moveArrives State.showPosition
  split
  · next q _ _ _ =>
    have h1 := h.input s (.position n .straight) (decide (q = .straight)) (fun k hk => by cases hk) hs
    exact h.event _ _ (.arrival n) (h.input _ (.position n .diverge) (decide (q = .diverge)) (fun k hk => by cases hk) h1)
  · exact hs

theorem leaseEnds (p : PortId) : P (leaseEnds p s) := by
  unfold Machine.leaseEnds
  split
  · exact h.lapse hs p _
  · exact hs

/-- Every row keeps the property. -/
theorem exec (i : Instr) {t : State} (ht : exec i s = .next t) : P t := by
  cases hi : i.command with
  | some q =>
    rw [exec_command i q.1 q.2 s hi] at ht
    cases ht
    exact h.submit hs _ _
  | none =>
    cases i with
    | coldStart => cases ht; exact h.cold s hs
    | warmStart => cases ht; exact h.warm s hs
    | commandFrame p bs => cases ht; exact h.serveFrame hs p bs
    | readFrame p n => cases ht; exact h.serveRead hs p n
    | repeatFrame p n => cases ht; exact h.serveRepeat hs p n
    | entrySensorChange z a => cases ht; exact h.changeInput hs _ _ (fun _ e => by cases e) (.entry z a)
    | passageGapExpiry z => cases ht; exact h.event s _ (.gap z) hs
    | passageLimitExpiry z => cases ht; exact h.event s _ (.limit z) hs
    | stopSensorChange z a => cases ht; exact h.changeInput hs _ _ (fun _ e => by cases e) (.stop z a)
    | holdFeedbackChange z a => cases ht; exact h.changeInput hs _ _ (fun _ e => by cases e) (.feedback z)
    | holdConfirmExpiry z => cases ht; exact h.event s _ (.confirm z) hs
    | readyChange r a => cases ht; exact h.changeInput hs _ _ (fun _ e => by cases e) (.ready r a)
    | estopLineChange k a => cases ht; exact h.estopLine hs k a
    | estopClearExpiry => cases ht; exact h.event s _ .clear hs
    | switchPositionChange n q a => cases ht; exact h.changeInput hs _ _ (fun _ e => by cases e) (.position n)
    | moveArrival n => cases ht; exact h.moveArrives hs n
    | moveLimitExpiry n => cases ht; exact h.event s _ (.move n) hs
    | settleExpiry z => cases ht; exact h.event s _ (.settle z) hs
    | dwellExpiry t => cases ht; exact h.event s _ (.dwell t) hs
    | departureWindowExpiry t => cases ht; exact h.event s _ (.window t) hs
    | travelLimitExpiry t => cases ht; exact h.event s _ (.travel t) hs
    | claimWaitExpiry k => cases ht; exact h.event s _ (.wait k) hs
    | leaseExpiry p => cases ht; exact h.leaseEnds hs p
    | occupancySample => cases ht; exact h.event _ _ .sample (h.frame (s := s) rfl rfl rfl hs)
    | _ => cases hi

end

/-- Every step keeps the property. -/
theorem kept : Kept P := by
  intro s t hs ht
  unfold step at ht
  split at ht
  · refine h.exec ?_ _ ht
    exact h.frame (s := s) rfl rfl rfl hs
  · unfold stepIdle at ht
    split at ht
    · next hd => cases ht; exact h.tick s hd hs
    · exact h.exec hs _ ht
    · refine h.exec ?_ _ ht
      exact h.frame (s := s) rfl rfl rfl hs

end StepRules

end Sys2Proof.Machine
end

section
/-! SUPPORT. Every step keeps every hold as the release rule gives it (R28, R29): an event closes with the rule applied afresh, or
leaves alone what the rule reads. -/

namespace Sys2Proof.Machine

/-! ### Tracks with every hold HELD -/

/-- Where no train may pass and no section is held, holds that are HELD follow the rule. -/
theorem holdsFollow_of_held {w : Track} (hm : w.mode ≠ .operating)
    (hs : (∀ z p, w.zoneState z ≠ some (.handed p)) ∨ ∀ (p : PortId) x, w.sections[p] ≠ .held x) (hh : ∀ z, w.hold z ≠ some .released) :
    w.holdsFollow := by
  rw [holdsFollow_iff]
  intro z x hx
  have hx' : x ≠ .released := fun h => hh z (h ▸ hx)
  refine ⟨fun h => absurd h hx', ?_⟩
  rintro (⟨ho, -⟩ | ⟨-, p, y, hz, hy, -⟩)
  · exact absurd ho hm
  · rcases hs with hs | hs
    · exact absurd hz (hs z p)
    · exact absurd hy (hs p y)

/-- A warm start never leaves the mode OPERATING (R165). -/
theorem warmMode_ne (e : Env) (m : Mode) : warmMode e m ≠ .operating := by
  unfold warmMode
  split
  · simp
  · split <;> simp

theorem warmStart_track (s : State) : ∃ e : Env, (warmStart s).track = (warmTrack e s.work).toTrack := ⟨_, rfl⟩

theorem warmStart_follows (s : State) : (warmStart s).track.holdsFollow := by
  obtain ⟨e, he⟩ := warmStart_track s
  rw [he]
  refine holdsFollow_of_held (warmMode_ne e _) (.inr fun p x => ?_) fun z => ?_
  · show (Vector.replicate 4 Section.none)[p] ≠ _
    rw [vector_get_replicate]
    exact fun h => by cases h
  · show (((Vector.ofFn fun z => (s.track.zones[z]).map (warmZone e z))[z]).bind (·.brake)).map (·.hold) ≠ _
    rw [vector_get_ofFn]
    cases s.track.zones[z] with
    | none => simp
    | some r => cases hb : r.brake <;> simp [warmZone, Zone.record, hb]

theorem commitState_follows (s : State) : (commitState s).track.holdsFollow := by
  refine holdsFollow_of_held (fun h => by cases h) (.inl fun z p => ?_) fun z => ?_
  · unfold Track.zoneState
    rw [commitState_zone]
    cases s.layout.zones[z] <;> simp [freshZone]
  · unfold Track.hold
    rw [commitState_zone]
    cases s.layout.zones[z] with
    | none => simp
    | some r => rw [Option.map_some, freshZone_eq]; by_cases hr : r.kind = .run <;> simp [hr]

theorem uncommitState_follows (s : State) : (uncommitState s).track.holdsFollow := by
  intro z r b hz
  rw [uncommitState_zone] at hz
  cases hz

/-! ### Timers, samples and other records nothing of the rule depends on -/

/-- A change of every zone record that keeps the hold and the port a zone is HANDED to. -/
theorem mapZones_same (w : Work) (f : ZoneId → Zone → Zone) (hb : ∀ z r, (f z r).brake.map (·.hold) = r.brake.map (·.hold))
    (hs : ∀ z r p, (f z r).state = .handed p ↔ r.state = .handed p) :
    SameRule w.toTrack ({ w with zones := Vector.ofFn fun z => (w.zones[z]).map (f z) } : Work).toTrack := by
  refine ⟨rfl, fun z => ?_, fun z p => ?_, fun _ => rfl, fun _ => rfl, fun n q => ?_, fun p z => ?_⟩
  · unfold Track.hold
    rw [vector_get_ofFn]
    cases w.zones[z] with
    | none => rfl
    | some r => exact hb z r
  · unfold Track.zoneState
    rw [vector_get_ofFn]
    cases w.zones[z] with
    | none => exact Iff.rfl
    | some r => simpa using hs z r p
  · unfold Track.switchState; exact Iff.rfl
  · unfold Track.requestOf Track.heldSection; rfl

/-- A sample of every zone (R26). -/
theorem sampleZones_same (e : Env) (w : Work) : SameRule w.toTrack (sampleZones e w).toTrack := by
  unfold sampleZones
  exact mapZones_same w (fun z r => r.record (sampleOf e z r)) (fun _ _ => rfl) (fun _ _ _ => Iff.rfl)

theorem zone_tick_hold (r : Zone) : r.tick.brake.map (·.hold) = r.brake.map (·.hold) := by
  unfold Zone.tick
  cases r.brake <;> rfl

theorem zone_tick_handed (r : Zone) (p : PortId) : r.tick.state = .handed p ↔ r.state = .handed p := by
  unfold Zone.tick ZoneState.tick
  cases r.state <;> simp

theorem switch_tick_settled (r : Switch) (q : Position) : r.tick.state = .settled q ↔ r.state = .settled q := by
  unfold Switch.tick
  cases r.state <;> simp

/-- One millisecond (log 2). -/
theorem tick_same (w : Track) : SameRule w w.tick := by
  refine ⟨rfl, fun z => ?_, fun z p => ?_, fun t => ?_, fun t => ?_, fun n q => ?_, fun _ _ => rfl⟩
  · unfold Track.hold Track.tick
    rw [vector_get_map]
    cases w.zones[z] with
    | none => rfl
    | some r => exact zone_tick_hold r
  · unfold Track.zoneState Track.tick
    rw [vector_get_map]
    cases w.zones[z] with
    | none => exact Iff.rfl
    | some r => simpa using zone_tick_handed r p
  · unfold Track.tick; rw [vector_get_map]; rfl
  · unfold Track.tick; rw [vector_get_map]; rfl
  · unfold Track.switchState Track.tick
    rw [vector_get_map]
    cases w.switches[n] with
    | none => exact Iff.rfl
    | some r => simpa using switch_tick_settled r q

theorem setTracker_same (w : Work) (z k) : SameRule w.toTrack (w.setTracker z k).toTrack :=
  ⟨rfl, fun _ => rfl, fun _ _ => Iff.rfl, fun _ => rfl, fun _ => rfl, fun _ _ => Iff.rfl, fun _ _ => rfl⟩

/-- A change of a switch record that settles it nowhere and lets it settle nowhere new. -/
theorem modifySwitch_same (w : Work) (n : SwitchId) (f : Switch → Switch)
    (h : ∀ s q, w.switches[n] = some s → ((f s).state = .settled q ↔ s.state = .settled q)) :
    SameRule w.toTrack (w.modifySwitch n f).toTrack := by
  refine ⟨rfl, fun _ => rfl, fun _ _ => Iff.rfl, fun _ => rfl, fun _ => rfl, fun m q => ?_, fun _ _ => rfl⟩
  unfold Track.switchState Work.modifySwitch
  rw [vector_get_set]
  split
  · next e =>
    subst e
    cases hs : w.switches[n] with
    | none => exact Iff.rfl
    | some s => simpa using h s q hs
  · exact Iff.rfl

/-- Claims chosen are withdrawn, each of them WAITING or of a section (R110). -/
theorem withdrawAll_same (gone : Claim → Bool) (hg : ∀ c, gone c = true → ∃ g, c.body = .sectionOf g) (w : Work) :
    SameRule w.toTrack (withdrawAll gone w).toTrack := by
  have key : ∀ (cs : List Claim), (∀ c ∈ cs, gone c = true) → ∀ w : Work, SameRule w.toTrack
      (cs.foldl (fun w c => if w.allClaims.any fun d => d.same c then withdrawClaim c w else w) w).toTrack := by
    intro cs hc
    induction cs with
    | nil => exact fun w => .refl _
    | cons c cs ih =>
      intro w
      rw [List.foldl_cons]
      refine SameRule.trans ?_ (ih (fun d hd => hc d (List.mem_cons_of_mem _ hd)) _)
      split
      · exact withdrawClaim_same c w (.inr (hg c (hc c List.mem_cons_self)))
      · exact .refl _
  exact key _ (fun c hc => (List.mem_filter.1 hc).2) w

/-! ### Events -/

/-- A zone that is neither HANDED before nor after (R18). -/
theorem setZone_follows (e : Env) (w : Work) (z : ZoneId) (s : ZoneState) (hs : ∀ p, s ≠ .handed p)
    (hz : ∀ p, w.zoneState z ≠ some (.handed p)) (h : w.holdsFollow) : (closeEval e (w.setZone z s)).holdsFollow :=
  closeEval_follows e _ ((setZone_same w z s hs hz).follows h)

theorem headEvent_follows (e : Env) (z) (w : Work) (h : w.holdsFollow) : (headEvent e z w).holdsFollow := by
  unfold headEvent
  split
  · exact h
  · exact h
  · split <;> exact closeEvent_follows e _

theorem tailEvent_follows (e : Env) (z) (w : Work) (h : w.holdsFollow) : (tailEvent e z w).holdsFollow := by
  unfold tailEvent
  split
  · exact h
  · exact h
  · split
    · exact h
    · split
      · exact h
      · exact closeEvent_follows e _

theorem entryChange_follows (e : Env) (z a) (w : Work) (h : w.holdsFollow) : (entryChange e z a w).holdsFollow := by
  unfold entryChange
  split
  · exact h
  · split
    · exact headEvent_follows e z _ ((setTracker_same _ _ _).follows h)
    · exact h
  · exact (setTracker_same _ _ _).follows h
  · exact (setTracker_same _ _ _).follows h

theorem gapEnds_follows (e : Env) (z) (w : Work) (h : w.holdsFollow) : (gapEnds e z w).holdsFollow := by
  unfold gapEnds
  split
  · split
    · exact (setTracker_same _ _ _).follows h
    · exact tailEvent_follows e z _ ((setTracker_same _ _ _).follows h)
  · exact (setTracker_same _ _ _).follows h
  · exact h
  · exact h
  · exact h
  · exact h

theorem limitEnds_follows (e : Env) (z) (w : Work) (h : w.holdsFollow) : (limitEnds e z w).holdsFollow := by
  unfold limitEnds
  split
  · exact closeEvent_follows e _
  · exact h
  · exact h
  · exact h

theorem stopChange_follows (e : Env) (z a) (w : Work) (h : w.holdsFollow) : (stopChange e z a w).holdsFollow := by
  unfold stopChange
  split
  · exact h
  · split
    · split
      · exact closeEvent_follows e _
      · exact h
    · split
      · exact (depart_same e _ z w).follows h
      · exact h

theorem judgeDisagree_follows (e : Env) (z b) (w : Work) (h : w.holdsFollow) : (judgeDisagree e z b w).holdsFollow := by
  unfold judgeDisagree
  split
  · exact closeEvent_follows e _
  · exact ((setSupervision_same w z _).trans (post_same _ _ _ _ _ _)).follows h

theorem feedbackChange_follows (e : Env) (z) (w : Work) (h : w.holdsFollow) : (feedbackChange e z w).holdsFollow := by
  unfold feedbackChange
  split
  · exact h
  · split
    · exact h
    · split
      · exact h
      · exact judgeDisagree_follows e z _ w h
    · split
      · exact (setSupervision_same w z _).follows h
      · exact h

theorem confirmEnds_follows (e : Env) (z) (w : Work) (h : w.holdsFollow) : (confirmEnds e z w).holdsFollow := by
  unfold confirmEnds
  split
  · exact h
  · split
    · split
      · exact (setSupervision_same w z _).follows h
      · exact judgeDisagree_follows e z _ w h
    · exact h
    · exact h

theorem readyChange_follows (e : Env) (i a) (w : Work) (h : w.holdsFollow) : (readyChange e i a w).holdsFollow := by
  unfold readyChange
  split
  · exact h
  · split
    · unfold readyDrops
      split
      · exact h
      · split
        · exact h
        · exact closeEvent_follows e _
        · exact closeEvent_follows e _
        · exact closeEvent_follows e _
    · exact h

theorem positionChange_follows (e : Env) (n) (w : Work) (h : w.holdsFollow) : (positionChange e n w).holdsFollow := by
  unfold positionChange
  split
  · split
    · exact h
    · exact closeEvent_follows e _
  · split
    · exact closeEvent_follows e _
    · exact h
  · exact h
  · exact h
  · exact h

/-- A retry is of a move, and leaves the switch MOVING (R130). -/
theorem attemptEnds_follows (e : Env) (n) (w : Work) (h : w.holdsFollow) : (attemptEnds e n w).holdsFollow := by
  unfold attemptEnds
  split
  · exact h
  · next s hs =>
    split
    · next q _ served hm =>
      split
      · unfold retryMove
        refine ((modifySwitch_same w n _ fun r q hr => ?_).trans (post_same _ _ _ _ _ _)).follows h
        obtain rfl : s = r := Option.some.inj (hs.symm.trans hr)
        rw [hm]
        simp
      · exact closeEvent_follows e _
    · exact h
    · exact h
    · exact h

theorem clearEnds_follows (e : Env) (w : Work) (h : w.holdsFollow) : (clearEnds e w).holdsFollow := by
  unfold clearEnds
  split
  · exact closeEvent_follows e _
  · exact h

theorem settleEnds_follows (e : Env) (z) (w : Work) (h : w.holdsFollow) : (settleEnds e z w).holdsFollow := by
  unfold settleEnds
  split
  · next hz => exact setZone_follows e w z .clear (fun _ => nofun) (fun p hp => by rw [hz] at hp; cases hp) h
  · exact h

theorem dwellEnds_follows (e : Env) (t) (w : Work) (h : w.holdsFollow) : (dwellEnds e t w).holdsFollow := by
  unfold dwellEnds
  split
  · unfold endDwell
    have h1 := modifyTrain_same w t (fun r => { r with dwell := none }) rfl rfl
    exact closeEval_follows e _ ((h1.trans (formAtRest_same _ _ _ _ _)).follows h)
  · exact h

theorem windowEnds_follows (e : Env) (t) (w : Work) (h : w.holdsFollow) : (windowEnds e t w).holdsFollow := by
  unfold windowEnds; split
  · exact closeEvent_follows e _
  · exact h

theorem travelEnds_follows (e : Env) (t) (w : Work) (h : w.holdsFollow) : (travelEnds e t w).holdsFollow := by
  unfold travelEnds; split
  · exact closeEvent_follows e _
  · exact h

/-- The claim whose wait ends is WAITING (R108). -/
theorem waitingClaim_waiting {w : Track} {k : Claimant} {c : Claim} (h : waitingClaim w k = some c) : c.isWaiting = true := by
  have := List.find?_some h
  simp only [Bool.and_eq_true] at this
  exact this.1.2

theorem postExpired_same (g) (w : Work) : SameRule w.toTrack (postExpired g w).toTrack := by
  unfold postExpired; split <;> exact .refl _

theorem waitEnds_follows (e : Env) (k) (w : Work) (h : w.holdsFollow) : (waitEnds e k w).holdsFollow := by
  unfold waitEnds
  split
  · exact h
  · next c hc =>
    split
    · exact closeEval_follows e _
        (((withdrawClaim_same c w (.inl (waitingClaim_waiting hc))).trans (postExpired_same _ _)).follows h)
    · exact closeEvent_follows e _

theorem legOrder_follows (t o wait) (e : Env) (w : Work) (h : w.holdsFollow) : (legOrder t o wait e w).holdsFollow := by
  unfold legOrder clearStalled
  have h1 := modifyTrain_same w t (fun r => r.mapRide fun d => { d with stalled := false }) rfl rfl
  exact closeEval_follows e _ ((h1.trans (formAtRest_same _ _ _ _ _)).follows h)

theorem proceed_follows (t) (e : Env) (w : Work) (h : w.holdsFollow) : (proceed t e w).holdsFollow := by
  unfold proceed
  have h1 := modifyTrain_same w t
    (fun r => { r.mapRide fun d => { d with stalled := false } with dwell := none }) rfl rfl
  exact closeEval_follows e _ ((h1.trans (formAtRest_same _ _ _ _ _)).follows h)

/-- A dispatch in the phase WAITING is of a WAITING claim (R117). -/
theorem dispatchPhase_waiting {w : Track} {z : ZoneId} {t : TrainId} (h : dispatchPhase w z = some (.waiting, t)) :
    ∃ c, dispatchClaim w t z = some c ∧ c.isWaiting = true := by
  unfold dispatchPhase at h
  split at h
  · cases h
  · split at h
    · split at h
      · next c hc =>
        by_cases hw : c.isWaiting = true
        · rw [if_pos hw] at h; cases h; exact ⟨c, hc, hw⟩
        · rw [if_neg hw] at h; cases h
      · cases h
    · split at h
      · split at h <;> cases h
      · cases h
    · cases h

theorem cancelDispatch_follows {t z} (e : Env) (w : Work) (hp : dispatchPhase w.toTrack z = some (.waiting, t))
    (h : w.holdsFollow) : (cancelDispatch t z e w).holdsFollow := by
  obtain ⟨c, hc, hw⟩ := dispatchPhase_waiting hp
  unfold cancelDispatch abortClaimed
  rw [hc]
  exact closeEval_follows e _ (((withdrawClaim_same c w (.inl hw)).trans (postAbort_same _ _ _ _)).follows h)

/-- A section record that holds no section asks for no release. -/
theorem requestOf_none {w : Track} {p : PortId} (h : ∀ x, w.sections[p] ≠ .held x) (z : ZoneId) : w.requestOf p z = none := by
  unfold Track.requestOf Track.heldSection
  split
  · next x hx => exact absurd hx (h x)
  · rfl
  · rfl

theorem requestSection_follows (p zs wait) (e : Env) (w : Work) (hp : w.sections[p] = .none) (h : w.holdsFollow) :
    (requestSection p zs wait e w).holdsFollow := by
  unfold requestSection
  have h1 := arriveClaim_same (.sectionOf { port := p, zones := zs, switches := sectionSwitches e.layout zs }) wait w
  refine closeEval_follows e _ ((h1.trans (setSection_same _ p .claimed fun z => ?_)).follows h)
  rw [h1.request, requestOf_none (fun x hx => by rw [hp] at hx; cases hx)]

theorem isSectionOf_body {c : Claim} {p : PortId} (h : c.isSectionOf p = true) : ∃ g, c.body = .sectionOf g := by
  unfold Claim.isSectionOf at h
  split at h
  · cases h
  · next g hg => exact ⟨g, hg⟩

theorem cancelSection_follows (p) (e : Env) (w : Work) (hp : w.sections[p] = .claimed) (h : w.holdsFollow) :
    (cancelSection p e w).holdsFollow := by
  unfold cancelSection
  have h1 := withdrawAll_same (fun c => c.isSectionOf p) (fun c hc => isSectionOf_body hc) w
  refine closeEval_follows e _ ((h1.trans (setSection_same _ p .none fun z => ?_)).follows h)
  rw [h1.request, requestOf_none (fun x hx => by rw [hp] at hx; cases hx)]

/-- An asserted zone was UNKNOWN or FAULT (R25). -/
theorem assertEmpty_follows (z) (e : Env) (w : Work) (hz : doubtful (w.zoneState z) = true) (h : w.holdsFollow) :
    (assertEmpty z e w).holdsFollow :=
  setZone_follows e w z .clear (fun _ => nofun) (fun p hp => by rw [hp] at hz; cases hz) h

/-- Every event keeps every hold as the release rule gives it. -/
theorem event_follows {s : State} {f : Env → Work → Work} (hf : Event s f) (h : s.track.holdsFollow) :
    (f s.env s.work).holdsFollow := by
  have hw : s.work.holdsFollow := h
  cases hf with
  | operating => exact closeEvent_follows _ _
  | standby => exact closeEvent_follows _ _
  | halted => unfold enterHalted; split <;> exact closeEvent_follows _ _
  | place => exact closeEvent_follows _ _
  | assign => exact closeEvent_follows _ _
  | retireStore => exact closeEvent_follows _ _
  | retireRemove => exact closeEvent_follows _ _
  | assertEmpty hz => exact assertEmpty_follows _ _ _ hz hw
  | proceed => exact proceed_follows _ _ _ hw
  | breakLoop t => exact (modifyTrain_same s.work t Train.breakLoop rfl rfl).follows h
  | resetSwitch => exact closeEvent_follows _ _
  | legOrder => exact legOrder_follows _ _ _ _ _ hw
  | cancelDispatch hp => exact cancelDispatch_follows _ _ hp hw
  | requestSection zs wait hp => exact requestSection_follows _ _ _ _ _ hp hw
  | cancelSection hp => exact cancelSection_follows _ _ _ hp hw
  | takeReturn => exact closeEvent_follows _ _
  | setHold => exact applyRelease_follows _ _
  | moveFor => exact arrivals_follows _ _ _ (applyRelease_follows _ _)
  | lapse => exact closeEvent_follows _ _
  | resumed => exact hw
  | entry z a => exact entryChange_follows _ _ _ _ hw
  | stop z a => exact stopChange_follows _ _ _ _ hw
  | feedback z => exact feedbackChange_follows _ _ _ hw
  | ready r a => exact readyChange_follows _ _ _ _ hw
  | position n => exact positionChange_follows _ _ _ hw
  | arrival n => exact closeEvent_follows _ _
  | gap z => exact gapEnds_follows _ _ _ hw
  | limit z => exact limitEnds_follows _ _ _ hw
  | confirm z => exact confirmEnds_follows _ _ _ hw
  | clear => exact clearEnds_follows _ _ hw
  | move n => exact attemptEnds_follows _ _ _ hw
  | settle z => exact settleEnds_follows _ _ _ hw
  | dwell t => exact dwellEnds_follows _ _ _ hw
  | window t => exact windowEnds_follows _ _ _ hw
  | travel t => exact travelEnds_follows _ _ _ hw
  | wait k => exact waitEnds_follows _ _ _ hw
  | sample => exact (sampleZones_same _ _).follows h

theorem estopChange_follows (a) (e : Env) (w : Work) (h : w.holdsFollow) : (estopChange a e w).holdsFollow := by
  unfold estopChange
  split
  · split
    · exact h
    · exact closeEvent_follows e _
  · split
    · exact h
    · exact h

theorem holdsFollow_rules : StepRules fun s => s.track.holdsFollow where
  frame _ _ ht hs := ht ▸ hs
  cold _ _ := reset_holdsFollow
  warm s _ := warmStart_follows s
  load _ _ _ _ _ hs := hs
  commit s _ _ _ _ := commitState_follows s
  uncommit s _ _ _ _ _ := uncommitState_follows s
  input _ _ _ _ hs := hs
  estop s k a _ hs := estopChange_follows a (s.setInput (.estop k) a).env (s.setInput (.estop k) a).work hs
  tick s _ hs := (tick_same s.track).follows hs
  event _ _ hf hs := event_follows hf hs

end Sys2Proof.Machine

namespace Sys2Proof.Proofs
open Sys2Proof.Machine

/-- Settles O55: what a step can do, and that each of it keeps the rule. -/
theorem holdsFollowTheReleaseRule : Obligations.HoldsFollowTheReleaseRule := holdsFollow_rules.kept

end Sys2Proof.Proofs
end

section
/-! SUPPORT. Every step keeps drives, moves and mode safe (R125, R134, R149, R156, Table 10-1): what no operation on the track
breaks, the changes of mode, and the sampler of the ESTOP lines. -/

namespace Sys2Proof.Machine

/-! ### What operations that set no mode keep of switches and mode -/

/-- What every operation that sets no mode keeps of switches, mode and clear time. -/
structure Moves (a b : Work) : Prop where
  mode : b.mode = a.mode
  clear : b.estopClear = a.estopClear
  drives : a.drivesFollow → b.drivesFollow
  still : a.mode = .estopped → a.noneMoving → b.noneMoving
  absent : ∀ n : SwitchId, a.switches[n] = none → b.switches[n] = none

/-- The switches, mode and clear time are the same. -/
theorem Moves.of_eq {a b : Work} (hm : b.mode = a.mode) (hc : b.estopClear = a.estopClear) (hs : b.switches = a.switches) :
    Moves a b where
  mode := hm
  clear := hc
  drives h := fun n r hr => h n r (by rw [← hs]; exact hr)
  still _ h := fun n r hr => h n r (by rw [← hs]; exact hr)
  absent n h := by rw [hs]; exact h

/-- Every switch record is changed, each keeping its drives with its state and starting no move. -/
theorem Moves.of_map {a b : Work} (hm : b.mode = a.mode) (hc : b.estopClear = a.estopClear)
    (hs : ∀ n : SwitchId, ∃ f : Switch → Switch, b.switches[n] = (a.switches[n]).map f ∧
      (∀ s, s.drivesAgree → (f s).drivesAgree) ∧ ∀ s, (f s).isMoving = true → s.isMoving = true) : Moves a b where
  mode := hm
  clear := hc
  drives h := fun n r hr => by
    obtain ⟨f, hf, hd, -⟩ := hs n
    obtain ⟨s, hsome, rfl⟩ := Option.map_eq_some_iff.1 (hf.symm.trans hr)
    exact hd s (h n s hsome)
  still _ h := fun n r hr => by
    obtain ⟨f, hf, -, hm⟩ := hs n
    obtain ⟨s, hsome, rfl⟩ := Option.map_eq_some_iff.1 (hf.symm.trans hr)
    exact eq_false_of_ne_true fun hr => Bool.noConfusion ((hm s hr).symm.trans (h n s hsome))
  absent n h := by
    obtain ⟨f, hf, -⟩ := hs n
    rw [hf, h]
    rfl

/-- The record of a switch after one of them has been changed. -/
theorem modifySwitch_switch (w : Work) (n m : SwitchId) (f : Switch → Switch) :
    (w.modifySwitch n f).switches[m] = if n = m then (w.switches[m]).map f else w.switches[m] := by
  unfold Work.modifySwitch
  rw [vector_get_set]
  split
  · next h => rw [h]
  · rfl

/-- One switch record is changed, keeping its drives with its state and starting no move. -/
theorem Moves.modifySwitch (w : Work) (n : SwitchId) (f : Switch → Switch) (hd : ∀ s, s.drivesAgree → (f s).drivesAgree)
    (hm : ∀ s, (f s).isMoving = true → s.isMoving = true) : Moves w (w.modifySwitch n f) := by
  refine .of_map rfl rfl fun m => ?_
  rw [modifySwitch_switch]
  by_cases h : n = m
  · exact ⟨f, if_pos h, hd, hm⟩
  · exact ⟨id, by rw [if_neg h, Option.map_id, id], fun _ h => h, fun _ h => h⟩

/-- A move that starts has the drive of its target on, and starts outside ESTOPPED (R125, R134). -/
theorem Moves.startMove (e : Env) (w : Work) (n : SwitchId) (q : Position) (x : Served) (hm : w.mode ≠ .estopped) :
    Moves w (startMove e n q x w) where
  mode := rfl
  clear := rfl
  drives h := fun m r hr => by
    unfold Machine.startMove at hr
    rw [modifySwitch_switch] at hr
    split at hr
    · obtain ⟨s, -, rfl⟩ := Option.map_eq_some_iff.1 hr
      exact drivesAgree_moving _ q _ x rfl rfl rfl
    · exact h m r hr
  still h := absurd h hm
  absent m h := by
    unfold Machine.startMove
    rw [modifySwitch_switch, h]
    exact ite_self _

theorem moves_steady : Steady Moves where
  refl w := .of_eq rfl rfl rfl
  trans h k :=
    { mode := k.mode.trans h.mode, clear := k.clear.trans h.clear, drives := fun x => k.drives (h.drives x)
      still := fun e x => k.still (h.mode.trans e) (h.still e x), absent := fun n x => k.absent n (h.absent n x) }
  mode h := h.mode
  posts _ _ := .of_eq rfl rfl rfl
  zones _ _ := .of_eq rfl rfl rfl
  trackers _ _ := .of_eq rfl rfl rfl
  trains _ _ := .of_eq rfl rfl rfl
  sections _ _ := .of_eq rfl rfl rfl
  setClaims w cs := .of_eq (Work.setClaims_mode w cs) (Work.setClaims_estopClear w cs) (Work.setClaims_switches w cs)
  newClaim w b t := by unfold arriveClaim; dsimp only; split <;> exact .of_eq rfl rfl rfl
  edit _ _ _ _ _ := .of_eq rfl rfl rfl
  switch w n f hd hm := .modifySwitch w n f hd hm
  unserve w cs := .of_map rfl rfl fun n =>
    ⟨_, unserve_switch cs w n, unserveSwitch_agrees cs n, fun s h => by rw [unserveSwitch_moving] at h; exact h⟩
  start e w n q x hm := .startMove e w n q x hm

/-! ### Orders that set no mode -/

namespace Steady

variable {R : Work → Work → Prop} (h : Steady R) (e : Env) (w : Work)
include h

theorem place (t z g q) : R w (place t z g q e w) := by
  refine h.trans (h.trans (h.setZone w z (.occupied t)) (h.setTrain _ t (placedTrain z g q))) (h.trans ?_ (h.closeEvent e _))
  unfold actIfStanding
  split
  · exact h.actOnStep _ _ _
  · exact h.refl _

theorem assign (t d) : R w (assign t d e w) :=
  h.trans (h.modifyTrain w t _) (h.trans (h.actOnStep e t _) (h.closeEvent e _))

theorem retireStore (t) : R w (retireStore t e w) :=
  h.trans (h.withdrawAll _ w) (h.trans (h.removeEntries t 0 _)
    (h.trans (h.modifyTrain _ t _) (h.trans (h.postAbort t _ _ _) (h.closeEvent e _))))

theorem retireRemove (t) : R w (retireRemove t e w) := by
  refine h.trans ?_ (h.trans (h.setTrain _ t _) (h.closeEvent e _))
  unfold vacateUnknown
  split
  · exact h.setZone _ _ _
  · exact h.refl _

theorem assertEmpty (z) : R w (assertEmpty z e w) := h.trans (h.setZone w z _) (h.closeEval e _)

theorem proceed (t) : R w (proceed t e w) :=
  h.trans (h.modifyTrain w t _) (h.trans (h.formAtRest e t _ _ _) (h.closeEval e _))

theorem resetSwitch (n) : R w (resetSwitch n e w) := h.trans (h.abandonMove e n w) (h.closeEvent e _)

theorem legOrder (t o x) : R w (legOrder t o x e w) :=
  h.trans (h.modifyTrain w t _) (h.trans (h.formAtRest e t o x _) (h.closeEval e _))

theorem cancelDispatch (t z) : R w (cancelDispatch t z e w) := h.trans (h.abortClaimed t z _ w) (h.closeEval e _)

theorem requestSection (p zs x) : R w (requestSection p zs x e w) :=
  h.trans (h.newClaim w _ x) (h.trans (h.setSection _ p _) (h.closeEval e _))

theorem cancelSection (p) : R w (cancelSection p e w) :=
  h.trans (h.withdrawAll _ w) (h.trans (h.setSection _ p _) (h.closeEval e _))

theorem takeReturn (p x ds) : R w (takeReturn p x ds e w) := h.trans (h.returnSection e p x ds w) (h.closeEvent e _)

theorem setHold (p x z y) : R w (setHold p x z y e w) := h.trans (h.setSection w p _) (h.applyRelease e _)

theorem moveFor (p n q) (hm : w.mode ≠ .estopped) : R w (moveFor p n q e w) :=
  h.trans (h.start e w n q _ hm) (h.trans (h.applyRelease e _) (h.arrivals e 4 _))

theorem sampleZones : R w (sampleZones e w) := by
  unfold Machine.sampleZones
  exact h.zones w _

end Steady

/-! ### Drives, moves and mode together -/

/-- Drives follow the moves, no switch moves in ESTOPPED, and the mode agrees with the commit state `c` and with the ESTOP lines
as last told. -/
structure Track.Guarded (c : Bool) (told : EstopId → Bool) (w : Track) : Prop where
  drives : w.drivesFollow
  still : w.mode = .estopped → w.noneMoving
  none : c = false → ∀ n : SwitchId, w.switches[n] = none
  stops : ∀ k, told k = true → w.mode = .estopped
  clear : w.mode ≠ .estopped → w.estopClear = .none
  quiet : w.estopClear ≠ .none → ∀ k, told k = false
  modes : c = false → w.mode = .unconfigured ∨ w.mode = .estopped
  unconfigured : w.mode = .unconfigured → c = false

theorem safe_iff (s : State) : s.safe ↔ s.track.holdsFollow ∧
    s.track.Guarded s.layout.committed fun k => inputSeen s.layout s.inputs (.estop k) := by
  unfold State.safe State.switchesSafe State.estopAgrees State.modeAgrees
  constructor
  · rintro ⟨h, ⟨h1, h2, h3⟩, ⟨h4, h5, h6⟩, h7, h8⟩; exact ⟨h, h1, h2, h3, h4, h5, h6, h7, h8⟩
  · rintro ⟨h, h1, h2, h3, h4, h5, h6, h7, h8⟩; exact ⟨h, ⟨h1, h2, h3⟩, ⟨h4, h5, h6⟩, h7, h8⟩

section
variable {c : Bool} {told : EstopId → Bool}

theorem Moves.guarded {a b : Work} (h : Moves a b) (g : a.Guarded c told) : b.Guarded c told where
  drives := h.drives g.drives
  still e := h.still (h.mode.symm.trans e) (g.still (h.mode.symm.trans e))
  none e n := h.absent n (g.none e n)
  stops k e := h.mode.trans (g.stops k e)
  clear e := h.clear.trans (g.clear (h.mode ▸ e))
  quiet e := g.quiet (h.clear ▸ e)
  modes e := h.mode ▸ g.modes e
  unconfigured e := g.unconfigured (h.mode.symm.trans e)

/-- An operation that sets no mode. -/
theorem guarded_of_steady {a b : Work} (h : ∀ R, Steady R → R a b) (g : a.Guarded c told) : b.Guarded c told :=
  (h _ moves_steady).guarded g

/-- The mode changes between those of a committed layout outside ESTOPPED. -/
theorem Track.Guarded.setMode {w : Work} (g : w.Guarded c told) (hw : w.mode ≠ .unconfigured ∧ w.mode ≠ .estopped) {m : Mode}
    (hm : m ≠ .unconfigured ∧ m ≠ .estopped) : ({ w with mode := m } : Work).Guarded c told where
  drives := g.drives
  still e := absurd e hm.2
  none := g.none
  stops k e := absurd (g.stops k e) hw.2
  clear _ := g.clear hw.2
  quiet := g.quiet
  modes e := by rcases g.modes e with e | e <;> simp [e] at hw
  unconfigured e := absurd e hm.1

/-- An event that may halt the ride (R153, R154). -/
theorem HaltPath.guarded {a b : Work} (h : HaltPath a b) (g : a.Guarded c told) : b.Guarded c told := by
  induction h with
  | steady h => exact guarded_of_steady h g
  | halt a m => exact g.setMode (by rcases m with m | m <;> simp [m]) (by simp)
  | trans _ _ ih1 ih2 => exact ih2 (ih1 g)

/-! ### Events -/

/-- Every event but the orders of mode and the end of the clear time takes the track by operations that set no mode, or halts the
ride. -/
theorem event_haltPath {s : State} {f : Env → Work → Work} (hf : Event s f) :
    HaltPath s.work (f s.env s.work) ∨ f = clearEnds ∨
      ((s.track.mode ≠ .unconfigured ∧ s.track.mode ≠ .estopped) ∧ (f = enterOperating ∨ f = enterStandby ∨ f = enterHalted)) := by
  cases hf with
  | operating h => exact .inr (.inr ⟨h, .inl rfl⟩)
  | standby h => exact .inr (.inr ⟨h, .inr (.inl rfl)⟩)
  | halted h => exact .inr (.inr ⟨h, .inr (.inr rfl)⟩)
  | clear => exact .inr (.inl rfl)
  | place => exact .inl (.steady fun R h => h.place _ _ _ _ _ _)
  | assign => exact .inl (.steady fun R h => h.assign _ _ _ _)
  | retireStore => exact .inl (.steady fun R h => h.retireStore _ _ _)
  | retireRemove => exact .inl (.steady fun R h => h.retireRemove _ _ _)
  | assertEmpty => exact .inl (.steady fun R h => h.assertEmpty _ _ _)
  | proceed => exact .inl (.steady fun R h => h.proceed _ _ _)
  | breakLoop t => exact .inl (.steady fun R h => h.modifyTrain _ t _)
  | resetSwitch => exact .inl (.steady fun R h => h.resetSwitch _ _ _)
  | legOrder => exact .inl (.steady fun R h => h.legOrder _ _ _ _ _)
  | cancelDispatch => exact .inl (.steady fun R h => h.cancelDispatch _ _ _ _)
  | requestSection => exact .inl (.steady fun R h => h.requestSection _ _ _ _ _)
  | cancelSection => exact .inl (.steady fun R h => h.cancelSection _ _ _)
  | takeReturn => exact .inl (.steady fun R h => h.takeReturn _ _ _ _ _)
  | setHold => exact .inl (.steady fun R h => h.setHold _ _ _ _ _ _)
  | moveFor n q hm => exact .inl (.steady fun R h => h.moveFor _ _ _ _ _ hm)
  | lapse p c => exact .inl (.lapseTrack p c _ _)
  | resumed p => exact .inl (.steady fun R h => h.post _ _ _ _ _ _)
  | entry z a => exact .inl (.entryChange _ z a _)
  | stop z a => exact .inl (.steady fun R h => h.stopChange _ z a _)
  | feedback z => exact .inl (.feedbackChange _ z _)
  | ready r a => exact .inl (.steady fun R h => h.readyChange _ r a _)
  | position n => exact .inl (.positionChange _ n _)
  | arrival n => exact .inl (.close _ (.steady fun R h => h.arrive n _))
  | gap z => exact .inl (.gapEnds _ z _)
  | limit z => exact .inl (.limitEnds _ z _)
  | confirm z => exact .inl (.confirmEnds _ z _)
  | move n => exact .inl (.attemptEnds _ n _)
  | settle z => exact .inl (.steady fun R h => h.settleEnds _ z _)
  | dwell t => exact .inl (.steady fun R h => h.dwellEnds _ t _)
  | window t => exact .inl (.steady fun R h => h.windowEnds _ t _)
  | travel t => exact .inl (.travelEnds _ t _)
  | wait k => exact .inl (.steady fun R h => h.waitEnds _ k _)
  | sample => exact .inl (.steady fun R h => h.sampleZones _ _)

/-! ### Orders of mode -/

/-- SET_MODE OPERATING (R160, R161). -/
theorem enterOperating_guarded (e : Env) {w : Work} (g : w.Guarded c told) (hw : w.mode ≠ .unconfigured ∧ w.mode ≠ .estopped) :
    (enterOperating e w).Guarded c told :=
  guarded_of_steady (fun _ h => h.trans (h.postMode _ _ _) (h.trans (h.foldl _ (fun w t => by
    unfold resumeTrain
    split
    · split
      · exact h.formAtRest _ _ _ _ _
      · exact h.startDwell _ _ _ _
      · exact h.refl _
      · exact h.refl _
      · exact h.refl _
    · exact h.refl _) _ _) (h.closeEvent e _))) (g.setMode hw (m := .operating) (by simp))

/-- SET_MODE STANDBY (R162). -/
theorem enterStandby_guarded (e : Env) {w : Work} (g : w.Guarded c told) (hw : w.mode ≠ .unconfigured ∧ w.mode ≠ .estopped) :
    (enterStandby e w).Guarded c told :=
  guarded_of_steady (fun _ h => h.trans (h.foldl _ (fun w c => by
    unfold standbyClaim
    split
    · exact h.trans (h.withdrawClaim _ _) (h.postAbort _ _ _ _)
    · exact h.refl _) _ _) (h.trans (h.applyRelease e _) (h.trans (h.postMode _ _ _) (h.closeEvent e _))))
    (g.setMode hw (m := .standby) (by simp))

/-- SET_MODE HALTED (R163). -/
theorem enterHalted_guarded (e : Env) {w : Work} (g : w.Guarded c told) (hw : w.mode ≠ .unconfigured ∧ w.mode ≠ .estopped) :
    (enterHalted e w).Guarded c told := by
  have hg := g.setMode hw (m := .halted) (by simp)
  unfold enterHalted
  split
  · exact guarded_of_steady (fun _ h => h.trans (h.rideHalt e _ w) (h.trans (h.postMode _ _ _) (h.closeEvent e _))) hg
  · exact guarded_of_steady (fun _ h => h.trans (h.applyRelease e _) (h.trans (h.postMode _ _ _) (h.closeEvent e _))) hg

/-! ### The ESTOP lines -/

/-- The stop is lifted with both lines inactive (R158). -/
theorem clearEnds_guarded (e : Env) {w : Work} (g : w.Guarded e.layout.committed told) :
    (clearEnds e w).Guarded e.layout.committed told := by
  unfold clearEnds
  split
  · next n hm hc =>
    have hq := g.quiet (by rw [hc]; exact fun h => by cases h)
    refine guarded_of_steady (fun _ h => h.trans (h.postMode _ _ _) (h.closeEvent e _)) (a :=
      { w with mode := if e.layout.committed then .halted else .unconfigured, estopClear := none }) ?_
    exact
      { drives := g.drives, still := fun h => (by split at h <;> cases h), none := g.none
        stops := fun k hk => Bool.noConfusion ((hq k).symm.trans hk), clear := fun _ => rfl, quiet := fun h => absurd rfl h
        modes := fun h => .inl (if_neg (by rw [h]; exact Bool.false_ne_true))
        unconfigured := fun h => eq_false_of_ne_true fun hc => by
          have h' : (if e.layout.committed = true then Mode.halted else .unconfigured) = .unconfigured := h
          rw [if_pos hc] at h'
          cases h' }
  · exact g

/-- Every event keeps drives, moves and mode safe. -/
theorem event_guarded {s : State} {f : Env → Work → Work} (hf : Event s f) (g : s.track.Guarded s.layout.committed told) :
    (f s.env s.work).Guarded s.layout.committed told := by
  have gw : s.work.Guarded s.layout.committed told := g
  rcases event_haltPath hf with h | rfl | ⟨hm, rfl | rfl | rfl⟩
  · exact h.guarded gw
  · exact clearEnds_guarded s.env gw
  · exact enterOperating_guarded _ gw hm
  · exact enterStandby_guarded _ gw hm
  · exact enterHalted_guarded _ gw hm

end

/-! ### The entry into ESTOPPED (R134, R157) -/

/-- Whether a switch is MOVING after one record has been re-read. -/
theorem abandonMove_moving (e : Env) (n m : SwitchId) (w : Work) :
    switchMoving (abandonMove e n w).toTrack m = if n = m then false else switchMoving w.toTrack m := by
  unfold switchMoving abandonMove
  rw [modifySwitch_switch]
  split
  · cases w.switches[m] <;> simp [reread_still]
  · rfl

/-- Abandoning the moves of some switches leaves none of them MOVING (R134). -/
theorem abandon_still (e : Env) (n : SwitchId) (ns : List SwitchId) (w : Work) (h : n ∈ ns ∨ switchMoving w.toTrack n = false) :
    switchMoving (ns.foldl (fun w m => if switchMoving w.toTrack m then
      (abandonMove e m w).post [0] .switchAbandoned (.switch m) (rereadCode (e.positionRead m)) else w) w).toTrack n = false := by
  induction ns generalizing w with
  | nil => exact h.resolve_left List.not_mem_nil
  | cons m ns ih =>
    rw [List.foldl_cons]
    apply ih
    by_cases hm : switchMoving w.toTrack m = true
    · rw [if_pos hm]
      show _ ∨ switchMoving (abandonMove e m w).toTrack n = false
      rw [abandonMove_moving]
      by_cases hmn : m = n
      · exact .inr (if_pos hmn)
      · rw [if_neg hmn]
        exact h.imp_left fun h => (List.mem_cons.1 h).resolve_left (Ne.symm hmn)
    · rw [if_neg hm]
      rcases h with h | h
      · rcases List.mem_cons.1 h with rfl | h
        · exact .inr (eq_false_of_ne_true hm)
        · exact .inl h
      · exact .inr h

theorem noneMoving_iff (w : Track) : w.noneMoving ↔ ∀ n, switchMoving w n = false := by
  unfold Track.noneMoving switchMoving
  constructor
  · intro h n
    cases hr : w.switches[n] with
    | none => rfl
    | some r => exact h n r hr
  · intro h n r hr
    have := h n
    rwa [hr] at this

/-- After every move has been abandoned none is in progress (R134). -/
theorem abandonAll_still (e : Env) (w : Work) : (abandonAll e w).noneMoving :=
  (noneMoving_iff _).2 fun n => abandon_still e n switchIds w (.inl (mem_switchIds n))

/-- The entry into ESTOPPED abandons every move (R134, R157). -/
theorem enterEstopped_guarded {told was : EstopId → Bool} (e : Env) (a b : Bool) {w : Work} (g : w.Guarded e.layout.committed was)
    (hm : w.mode ≠ .estopped) : (enterEstopped e a b w).Guarded e.layout.committed told := by
  have hc := g.clear hm
  unfold enterEstopped
  by_cases hl : e.layout.committed = true
  · rw [if_pos hl]
    dsimp only
    have h1 := moves_steady.trans (moves_steady.rideHalt e .estopped w) (moves_steady.abandonAll e _)
    refine guarded_of_steady (fun _ h => h.trans (h.sections _ _) (h.trans (h.applyRelease e _) (h.postMode _ _ _)))
      (a := abandonAll e (rideHalt e .estopped w)) ?_
    exact
      { drives := h1.drives g.drives, still := fun _ => abandonAll_still _ _, none := fun h => absurd (h.symm.trans hl) (by simp)
        stops := fun _ _ => h1.mode, clear := fun h => absurd h1.mode h, quiet := fun h => absurd (h1.clear.trans hc) h
        modes := fun _ => .inr h1.mode, unconfigured := fun h => absurd (h1.mode.symm.trans h) (by simp) }
  · have hn := g.none (eq_false_of_ne_true hl)
    rw [if_neg hl]
    exact
      { drives := g.drives, still := fun _ n r hr => (nomatch (hn n).symm.trans hr), none := fun _ => hn
        stops := fun _ _ => rfl, clear := fun h => absurd rfl h, quiet := fun h => absurd hc h
        modes := fun _ => .inr rfl, unconfigured := fun h => by cases h }

/-- What has been told of an ESTOP line does not depend on the layout (R37). -/
theorem inputSeen_estop (l m : Layout) (x : Inputs) (k : EstopId) : inputSeen l x (.estop k) = inputSeen m x (.estop k) := rfl

/-- The line of an ESTOP input after an input has been given a level. -/
theorem inputLine_set_estop (x : Inputs) (i : InputId) (k : EstopId) (y : Line) :
    inputLine (setInputLine x i y) (.estop k) = if i = .estop k then y else inputLine x (.estop k) := by
  cases i with
  | estop j =>
    simp only [InputId.estop.injEq]
    exact vector_get_set x.estop j k y
  | position n q => cases q <;> rfl
  | _ => rfl

/-- What has been told of an ESTOP line after an input has been given a level. -/
theorem inputSeen_set (s : State) (i : InputId) (a : Bool) (k : EstopId) :
    inputSeen (s.setInput i a).layout (s.setInput i a).inputs (.estop k) =
      if i = .estop k then a else inputSeen s.layout s.inputs (.estop k) := by
  unfold inputSeen inputActive
  have hl : inputLine (s.setInput i a).inputs (.estop k) =
      if i = .estop k then Line.steady (wireLevel s.layout i a) else inputLine s.inputs (.estop k) := inputLine_set_estop _ _ _ _
  rw [hl]
  by_cases h : i = .estop k
  · rw [if_pos h, if_pos h, h]
    cases a <;> rfl
  · rw [if_neg h, if_neg h]
    rfl

theorem estopChange_guarded {s u : State} {k : EstopId} {a : Bool} (hu : u = s.setInput (.estop k) a)
    (hk : inputSeen s.layout s.inputs (.estop k) ≠ a)
    (g : s.track.Guarded s.layout.committed fun k => inputSeen s.layout s.inputs (.estop k)) :
    (estopChange a u.env u.work).Guarded u.layout.committed fun k => inputSeen u.layout u.inputs (.estop k) := by
  have hseen : ∀ j, inputSeen u.layout u.inputs (.estop j) = if InputId.estop k = .estop j then a else
      inputSeen s.layout s.inputs (.estop j) := fun j => by rw [hu]; exact inputSeen_set s (.estop k) a j
  have ht : u.track = s.track := by rw [hu]; rfl
  have hl : u.layout = s.layout := by rw [hu]; rfl
  rw [← ht, ← hl] at g
  clear hu ht
  unfold estopChange
  cases a with
  | true =>
    rw [if_pos rfl]
    split
    · next hm =>
      exact { drives := g.drives, still := g.still, none := g.none, stops := fun _ _ => hm, clear := fun h => absurd hm h
              quiet := fun h => absurd rfl h, modes := g.modes, unconfigured := g.unconfigured }
    · next hm =>
      exact guarded_of_steady (fun _ h => h.closeEvent _ _) (enterEstopped_guarded (w := u.work) u.env _ _ g hm)
  | false =>
    have hwas : inputSeen s.layout s.inputs (.estop k) = true := by simpa using hk
    have hless : ∀ j, inputSeen u.layout u.inputs (.estop j) = true → inputSeen s.layout s.inputs (.estop j) = true := by
      intro j hj
      rw [hseen] at hj
      split at hj
      · cases hj
      · exact hj
    have hstop := g.stops k hwas
    have hclear : u.track.estopClear = none := by
      by_contra hc
      exact Bool.noConfusion (hwas.symm.trans (g.quiet hc k))
    rw [if_neg Bool.false_ne_true]
    split
    · next hboth =>
      obtain ⟨-, h0, h1⟩ := hboth
      refine { drives := g.drives, still := g.still, none := g.none, stops := fun _ _ => hstop, clear := fun h => absurd hstop h
               quiet := fun _ j => ?_, modes := g.modes, unconfigured := g.unconfigured }
      match j with
      | 0 => exact h0
      | 1 => exact h1
    · exact { drives := g.drives, still := g.still, none := g.none, stops := fun j hj => g.stops j (hless j hj)
              clear := g.clear, quiet := fun h => absurd hclear h, modes := g.modes, unconfigured := g.unconfigured }

/-! ### The sampler and the timers -/

theorem inputLine_sample (l : Layout) (x : Inputs) (i : InputId) :
    inputLine (sampleInputs l x) i = sampleLine l i (inputLine x i) := by
  cases i with
  | position n q => cases q <;> exact vector_get_ofFn _ n
  | entry z => exact vector_get_ofFn _ z
  | stop z => exact vector_get_ofFn _ z
  | feedback z => exact vector_get_ofFn _ z
  | ready r => exact vector_get_ofFn _ r
  | estop k => exact vector_get_ofFn _ k

/-- A line whose level is told: one sample leaves what its owner has been told as it was, the change being due (R38, R39). -/
theorem inputSeen_sample (l : Layout) (x : Inputs) (k : EstopId) (h : (inputLine x (.estop k)).due = false) :
    inputSeen l (sampleInputs l x) (.estop k) = inputSeen l x (.estop k) := by
  unfold inputSeen inputActive
  rw [inputLine_sample]
  revert h
  generalize inputLine x (.estop k) = y
  obtain ⟨pin, est, level, last, count, due⟩ := y
  rintro rfl
  unfold sampleLine sampleEstablished sampleUnestablished hasOwner wireLevel safeActive activeHigh
  cases est with
  | true =>
    simp only [if_true]
    split
    · rfl
    · next hp =>
      split
      · rfl
      · revert hp; cases pin <;> cases level <;> simp
  | false =>
    simp only [Bool.false_eq_true, if_false]
    split
    · rfl
    · split
      · rfl
      · cases pin <;> simp

/-- With no event due, no change of an input waits for delivery. -/
theorem due_false {s : State} (h : dueEvents s = []) (i : InputId) (hi : i ∈ allInputs) : (inputLine s.inputs i).due = false := by
  unfold dueEvents dueChanges at h
  simp only [List.append_eq_nil_iff, List.map_eq_nil_iff, List.filter_eq_nil_iff] at h
  exact eq_false_of_ne_true (h.1.1.1 i hi)

theorem estop_mem_allInputs (k : EstopId) : .estop k ∈ allInputs := by
  unfold allInputs
  exact List.mem_append_right _ (List.mem_map_of_mem (List.mem_finRange k))

theorem switch_tick_agrees (s : Switch) (h : s.drivesAgree) : s.tick.drivesAgree := by
  unfold Switch.tick
  cases hs : s.state with
  | moving q n x => exact drivesAgree_served h hs rfl rfl rfl
  | _ => exact drivesAgree_congr h hs.symm rfl rfl

theorem switch_tick_moving (s : Switch) : s.tick.isMoving = s.isMoving := by
  unfold Switch.tick Switch.isMoving
  cases s.state <;> rfl

theorem tick_layout (s : State) : s.tick.layout = s.layout := by unfold State.tick; rfl
theorem tick_inputs (s : State) : s.tick.inputs = sampleInputs s.layout s.inputs := by unfold State.tick; rfl
theorem tick_track (s : State) : s.tick.track = s.track.tick := by unfold State.tick; rfl

theorem tick_guarded {s : State} (hd : dueEvents s = [])
    (g : s.track.Guarded s.layout.committed fun k => inputSeen s.layout s.inputs (.estop k)) :
    s.tick.track.Guarded s.layout.committed fun k => inputSeen s.tick.layout s.tick.inputs (.estop k) := by
  have hseen : ∀ k, inputSeen s.tick.layout s.tick.inputs (.estop k) = inputSeen s.layout s.inputs (.estop k) := fun k => by
    rw [tick_layout, tick_inputs]
    exact inputSeen_sample s.layout s.inputs k (due_false hd _ (estop_mem_allInputs k))
  have hclear : s.track.tick.estopClear = none ↔ s.track.estopClear = none := Option.map_eq_none_iff
  have hsw : ∀ n : SwitchId, s.track.tick.switches[n] = (s.track.switches[n]).map Switch.tick := fun n => vector_get_map _ _ n
  simp only [hseen]
  rw [tick_track]
  refine
    { drives := fun n r hr => ?_, still := fun hm n r hr => ?_, none := fun hc n => ?_, stops := g.stops
      clear := fun h => hclear.2 (g.clear h), quiet := fun h => g.quiet fun hn => h (hclear.2 hn), modes := g.modes
      unconfigured := g.unconfigured }
  · obtain ⟨x, hx, rfl⟩ := Option.map_eq_some_iff.1 ((hsw n).symm.trans hr)
    exact switch_tick_agrees x (g.drives n x hx)
  · obtain ⟨x, hx, rfl⟩ := Option.map_eq_some_iff.1 ((hsw n).symm.trans hr)
    rw [switch_tick_moving]
    exact g.still hm n x hx
  · rw [hsw, g.none hc n]
    rfl

/-! ### Starts, COMMIT and UNCOMMIT -/

/-- A switch record made or re-read has no drive on and is not MOVING (R126, R136). -/
theorem freshSwitch_agrees (e : Env) (n : SwitchId) : (freshSwitch e n).drivesAgree ∧ (freshSwitch e n).isMoving = false := by
  have hm : (freshSwitch e n).isMoving = false := by
    unfold freshSwitch Switch.isMoving
    cases e.positionRead n <;> rfl
  exact ⟨drivesAgree_still _ rfl rfl hm, hm⟩

/-- A warm start reads the ESTOP lines at their debounced levels, and leaves no change to tell (R165, log 5). -/
theorem inputLine_told (x : Inputs) (i : InputId) : inputLine x.told i = (inputLine x i).told := by
  cases i with
  | position n q => cases q <;> exact vector_get_map _ _ n
  | entry z => exact vector_get_map _ _ z
  | stop z => exact vector_get_map _ _ z
  | feedback z => exact vector_get_map _ _ z
  | ready r => exact vector_get_map _ _ r
  | estop k => exact vector_get_map _ _ k

theorem inputSeen_told (l : Layout) (x : Inputs) (i : InputId) : inputSeen l x.told i = inputActive l x.told i := by
  unfold inputSeen
  rw [inputLine_told]
  exact Bool.bne_false _

theorem anyEstop_iff (e : Env) : anyEstop e = true ↔ ∃ k, e.active (.estop k) = true := by
  unfold anyEstop
  rw [Bool.or_eq_true]
  constructor
  · rintro (h | h)
    · exact ⟨0, h⟩
    · exact ⟨1, h⟩
  · rintro ⟨k, h⟩
    match k with
    | 0 => exact .inl h
    | 1 => exact .inr h

theorem warmStart_guarded {s : State} (g : s.track.Guarded s.layout.committed fun k => inputSeen s.layout s.inputs (.estop k)) :
    (warmStart s).track.Guarded s.layout.committed fun k =>
      inputSeen (warmStart s).layout (warmStart s).inputs (.estop k) := by
  let e : Env := { layout := s.layout, routes := s.routes, inputs := s.inputs.told }
  have hseen : ∀ k, inputSeen (warmStart s).layout (warmStart s).inputs (.estop k) = e.active (.estop k) :=
    fun k => inputSeen_told s.layout s.inputs (.estop k)
  have hmode : (warmStart s).track.mode = warmMode e s.track.mode := rfl
  have hclear : (warmStart s).track.estopClear = warmClear e s.track.mode := rfl
  have hsw : ∀ n : SwitchId, (warmStart s).track.switches[n] = (s.track.switches[n]).map fun _ => freshSwitch e n :=
    fun n => vector_get_ofFn _ n
  simp only [hseen]
  refine
    { drives := fun n r hr => ?_, still := fun _ n r hr => ?_, none := fun hc n => ?_, stops := fun k hk => ?_
      clear := fun h => ?_, quiet := fun h k => ?_, modes := fun hc => ?_, unconfigured := fun h => ?_ }
  · obtain ⟨x, hx, rfl⟩ := Option.map_eq_some_iff.1 ((hsw n).symm.trans hr)
    exact (freshSwitch_agrees e n).1
  · obtain ⟨x, hx, rfl⟩ := Option.map_eq_some_iff.1 ((hsw n).symm.trans hr)
    exact (freshSwitch_agrees e n).2
  · rw [hsw, g.none hc n]
    rfl
  · rw [hmode]
    have := (anyEstop_iff e).2 ⟨k, hk⟩
    simp [warmMode, this]
  · rw [hmode] at h
    rw [hclear]
    unfold warmMode at h
    unfold warmClear
    split at h
    · exact absurd rfl h
    · next hn => rw [if_neg fun hx => hn (by simp only [Bool.and_eq_true] at hx; simp [hx.2])]
  · rw [hclear] at h
    unfold warmClear at h
    split at h
    · next hx =>
      rw [Bool.and_eq_true, Bool.not_eq_true'] at hx
      exact eq_false_of_ne_true fun ha => Bool.noConfusion (hx.1.symm.trans ((anyEstop_iff e).2 ⟨k, ha⟩))
    · exact absurd rfl h
  · rw [hmode]
    unfold warmMode
    split
    · exact .inr rfl
    · exact .inl (if_neg (by rw [show e.layout.committed = false from hc]; exact Bool.false_ne_true))
  · rw [hmode] at h
    unfold warmMode at h
    split at h
    · cases h
    · split at h
      · cases h
      · next hc => exact eq_false_of_ne_true hc

theorem commitState_guarded {s : State} (hm : s.track.mode ≠ .estopped)
    (g : s.track.Guarded s.layout.committed fun k => inputSeen s.layout s.inputs (.estop k)) :
    (commitState s).track.Guarded true fun k => inputSeen (commitState s).layout (commitState s).inputs (.estop k) where
  drives n r hr := by
    obtain ⟨x, hx, rfl⟩ := Option.map_eq_some_iff.1 ((commitState_switch s n).symm.trans hr)
    exact (freshSwitch_agrees _ n).1
  still h := by cases h
  none h := by cases h
  stops k hk := absurd (g.stops k hk) hm
  clear _ := g.clear hm
  quiet h := absurd (g.clear hm) h
  modes h := by cases h
  unconfigured h := by cases h

theorem uncommitState_guarded {s : State} (hm : s.track.mode ≠ .estopped)
    (g : s.track.Guarded s.layout.committed fun k => inputSeen s.layout s.inputs (.estop k)) :
    (uncommitState s).track.Guarded false fun k => inputSeen (uncommitState s).layout (uncommitState s).inputs (.estop k) where
  drives n r hr := nomatch (uncommitState_switch s n).symm.trans hr
  still h := by cases h
  none _ n := uncommitState_switch s n
  stops k hk := absurd (g.stops k hk) hm
  clear _ := g.clear hm
  quiet h := absurd (g.clear hm) h
  modes _ := .inl rfl
  unconfigured _ := rfl

theorem safe_rules : StepRules State.safe := by
  refine
    { frame := fun hl hi ht hs => ?_, cold := fun s _ => ?_, warm := fun s hs => ?_, load := fun s l hc hc' _ hs => ?_
      commit := fun s hc hm _ hs => ?_, uncommit := fun s hc hm _ _ hs => ?_, input := fun s i a hi hs => ?_
      estop := fun s k a hk hs => ?_, tick := fun s hd hs => ?_, event := fun s f hf hs => ?_ } <;> rw [safe_iff] at *
  · rw [hl, hi, ht]; exact hs
  · exact (safe_iff _).1 ⟨reset_holdsFollow, reset_switchesSafe, ⟨fun _ _ => rfl, fun h => absurd rfl h, fun h => absurd rfl h⟩,
      reset_modeAgrees⟩
  · exact ⟨warmStart_follows s, warmStart_guarded hs.2⟩
  · refine ⟨hs.1, ?_⟩
    have := hs.2
    rw [hc] at this
    show s.track.Guarded l.committed _
    rw [hc']
    exact this
  · exact ⟨commitState_follows s, commitState_guarded hm hs.2⟩
  · exact ⟨uncommitState_follows s, uncommitState_guarded (by rw [hm]; exact fun h => by cases h) hs.2⟩
  · refine ⟨hs.1, ?_⟩
    have hseen : ∀ k, inputSeen (s.setInput i a).layout (s.setInput i a).inputs (.estop k) =
        inputSeen s.layout s.inputs (.estop k) := fun k => by
      rw [inputSeen_set]
      split
      · next h => exact h ▸ (hi k h).symm
      · rfl
    simp only [hseen]
    exact hs.2
  · rw [State.run_track, State.run_layout, State.run_inputs]
    exact ⟨estopChange_follows a _ (s.setInput (.estop k) a).work hs.1, estopChange_guarded rfl hk hs.2⟩
  · have hg := tick_guarded hd hs.2
    rw [tick_track] at hg ⊢
    exact ⟨(tick_same s.track).follows hs.1, by rw [tick_layout] at hg ⊢; exact hg⟩
  · rw [State.run_track, State.run_layout, State.run_inputs]
    exact ⟨event_follows hf hs.1, event_guarded hf hs.2⟩

/-! ### What safe states show on their lines (R1, R29, R125) -/

theorem holdLine_iff (w : Track) (z : ZoneId) : w.holdLine z = true ↔ w.hold z = some .released := decide_eq_true_iff

/-- An energised hold line is one of the two cases of R28. -/
theorem holdLine_rule {w : Track} (h : w.holdsFollow) {z : ZoneId} (hz : w.holdLine z = true) :
    w.trainMayPass z ∨ w.masterReleases z :=
  ((holdsFollow_iff w).1 h z .released ((holdLine_iff w z).1 hz)).1 rfl

/-- In ESTOPPED no hold line is energised (R28). -/
theorem holdLine_estopped {w : Track} (h : w.holdsFollow) (hm : w.mode = .estopped) (z : ZoneId) : w.holdLine z = false := by
  refine eq_false_of_ne_true fun hz => ?_
  rcases holdLine_rule h hz with ⟨ho, -⟩ | ⟨hn, -⟩
  · exact absurd (hm.symm.trans ho) (by simp)
  · exact hn hm

/-- With no switch MOVING every drive is off (R125). -/
theorem driveLines_still {w : Track} (hd : w.drivesFollow) (hs : w.noneMoving) (n : SwitchId) : w.driveLines n = (false, false) := by
  cases hr : w.switches[n] with
  | none => exact driveLines_undefined hr
  | some r =>
    obtain ⟨h1, h2⟩ := hd n r hr
    have hm := hs n r hr
    unfold Switch.isMoving at hm
    have e1 : r.driveStraight = false := eq_false_of_ne_true fun h => by
      obtain ⟨l, x, e⟩ := h1.1 h; rw [e] at hm; cases hm
    have e2 : r.driveDiverge = false := eq_false_of_ne_true fun h => by
      obtain ⟨l, x, e⟩ := h2.1 h; rw [e] at hm; cases hm
    unfold Track.driveLines
    rw [hr, Option.map_some, e1, e2]
    rfl

end Sys2Proof.Machine

namespace Sys2Proof.Proofs
open Sys2Proof.Machine

/-- Settles O58: what a step can do, and that each of it keeps holds, drives and mode safe; the lines then follow. -/
theorem brakesAndDrivesStaySafe : Obligations.BrakesAndDrivesStaySafe := by
  refine ⟨safe_rules.kept, fun s ⟨hf, ⟨hd, hs, _⟩, ⟨hstop, _, _⟩, _⟩ => ⟨fun z hz => holdLine_rule hf hz, fun ⟨k, hk⟩ => ?_⟩⟩
  have hm := hstop k hk
  exact ⟨holdLine_estopped hf hm, driveLines_still hd (hs hm)⟩

end Sys2Proof.Proofs
end

section
/-! SUPPORT. What the operations on zones, trains and claims do: zone states, one train's record, claims that leave, and leg entries
given back (R19, R58, R101 to R103, R110). -/

namespace Sys2Proof.Machine

/-! ### Folds -/

/-- What each operation of a fold leaves alone the fold leaves alone. -/
theorem foldl_keeps {α β : Type} (g : Work → β) (f : Work → α → Work) (h : ∀ w x, g (f w x) = g w) (xs : List α) (w : Work) :
    g (xs.foldl f w) = g w := by
  induction xs generalizing w with
  | nil => rfl
  | cons x xs ih => rw [List.foldl_cons, ih, h]

/-! ### Zone states -/

theorem setZone_zone (w : Work) (z y : ZoneId) (s : ZoneState) :
    (w.setZone z s).zones[y] = if z = y then (w.zones[y]).map (fun r => { r with state := s }) else w.zones[y] := by
  unfold Work.setZone
  rw [vector_get_set]
  split
  · next h => rw [h]
  · rfl

theorem setZone_zoneState (w : Work) (z y : ZoneId) (s : ZoneState) :
    (w.setZone z s).zoneState y = if z = y then (w.zoneState y).map (fun _ => s) else w.zoneState y := by
  unfold Track.zoneState
  rw [setZone_zone]
  split
  · cases w.zones[y] <;> rfl
  · rfl

theorem setZones_zone (w : Work) (zs : List ZoneId) (y : ZoneId) (s : ZoneState) :
    (w.setZones zs s).zones[y] = if y ∈ zs then (w.zones[y]).map (fun r => { r with state := s }) else w.zones[y] := by
  unfold Work.setZones
  induction zs generalizing w with
  | nil => simp
  | cons z zs ih =>
    rw [List.foldl_cons, ih, setZone_zone]
    by_cases h : z = y
    · subst h
      cases w.zones[z] <;> simp
    · simp [h, Ne.symm h]

theorem setZones_zoneState (w : Work) (zs : List ZoneId) (y : ZoneId) (s : ZoneState) :
    (w.setZones zs s).zoneState y = if y ∈ zs then (w.zoneState y).map (fun _ => s) else w.zoneState y := by
  unfold Track.zoneState
  rw [setZones_zone]
  split
  · cases w.zones[y] <;> rfl
  · rfl

theorem zoneState_none (w : Track) (z : ZoneId) : w.zoneState z = none ↔ w.zones[z] = none := Option.map_eq_none_iff

/-- Setting zones changes zone records alone. -/
theorem setZones_frame (w : Work) (zs : List ZoneId) (s : ZoneState) : { w.setZones zs s with zones := w.zones } = w :=
  foldl_keeps (fun v => { v with zones := w.zones }) (fun w z => w.setZone z s) (fun _ _ => rfl) zs w

@[simp] theorem setZones_trains (w : Work) (zs : List ZoneId) (s : ZoneState) : (w.setZones zs s).trains = w.trains :=
  foldl_keeps (fun v => v.trains) (fun w z => w.setZone z s) (fun _ _ => rfl) zs w
@[simp] theorem setZones_claims (w : Work) (zs : List ZoneId) (s : ZoneState) : (w.setZones zs s).claims = w.claims :=
  foldl_keeps (fun v => v.claims) (fun w z => w.setZone z s) (fun _ _ => rfl) zs w
@[simp] theorem setZones_line (w : Work) (zs : List ZoneId) (s : ZoneState) : (w.setZones zs s).line = w.line :=
  foldl_keeps (fun v => v.line) (fun w z => w.setZone z s) (fun _ _ => rfl) zs w
@[simp] theorem setZones_posts (w : Work) (zs : List ZoneId) (s : ZoneState) : (w.setZones zs s).posts = w.posts :=
  foldl_keeps (fun v => v.posts) (fun w z => w.setZone z s) (fun _ _ => rfl) zs w

/-! ### One train's record -/

theorem setTrain_train (w : Work) (t u : TrainId) (r : Train) :
    (w.setTrain t r).trains[u] = if t = u then r else w.trains[u] := vector_get_set _ _ _ _

@[simp] theorem setTrain_self (w : Work) (t : TrainId) (r : Train) : (w.setTrain t r).trains[t] = r := by
  rw [setTrain_train, if_pos rfl]

theorem setTrain_other (w : Work) {t u : TrainId} (r : Train) (h : u ≠ t) : (w.setTrain t r).trains[u] = w.trains[u] := by
  rw [setTrain_train, if_neg (Ne.symm h)]

@[simp] theorem modifyTrain_self (w : Work) (t : TrainId) (f : Train → Train) : (w.modifyTrain t f).trains[t] = f w.trains[t] :=
  setTrain_self _ _ _

theorem modifyTrain_other (w : Work) {t u : TrainId} (f : Train → Train) (h : u ≠ t) :
    (w.modifyTrain t f).trains[u] = w.trains[u] := setTrain_other _ _ h

/-- A train's record replaced by itself. -/
theorem modifyTrain_same_record (w : Work) (t : TrainId) (f : Train → Train) (h : f w.trains[t] = w.trains[t]) :
    w.modifyTrain t f = w := by
  have : w.trains.set t (f w.trains[t]) = w.trains := vector_ext fun u => by
    rw [vector_get_set]
    split
    · next e => rw [← e, h]
    · rfl
  unfold Work.modifyTrain Work.setTrain
  rw [this]

/-! ### Claims -/

theorem dropClaims_claims (gone : Claim → Bool) (w : Work) :
    (dropClaims gone w).claims = ((w.claims ++ w.line).filter fun c => !gone c).take 12 := rfl
theorem dropClaims_line (gone : Claim → Bool) (w : Work) :
    (dropClaims gone w).line = ((w.claims ++ w.line).filter fun c => !gone c).drop 12 := rfl

/-- The claims that stay, list before line. -/
theorem dropClaims_all (gone : Claim → Bool) (w : Work) :
    (dropClaims gone w).claims ++ (dropClaims gone w).line = (w.claims ++ w.line).filter fun c => !gone c := by
  rw [dropClaims_claims, dropClaims_line, List.take_append_drop]

@[simp] theorem dropClaims_mode (gone : Claim → Bool) (w : Work) : (dropClaims gone w).mode = w.mode := rfl
@[simp] theorem dropClaims_zones (gone : Claim → Bool) (w : Work) : (dropClaims gone w).zones = w.zones := rfl
@[simp] theorem dropClaims_trains (gone : Claim → Bool) (w : Work) : (dropClaims gone w).trains = w.trains := rfl
@[simp] theorem dropClaims_sections (gone : Claim → Bool) (w : Work) : (dropClaims gone w).sections = w.sections := rfl
@[simp] theorem dropClaims_posts (gone : Claim → Bool) (w : Work) : (dropClaims gone w).posts = w.posts := rfl

/-- Claims that leave change claims and moves alone. -/
theorem dropClaims_frame (gone : Claim → Bool) (w : Work) :
    { dropClaims gone w with claims := w.claims, line := w.line, switches := w.switches } = w := rfl

/-! ### Leg entries (R19, R58) -/

theorem unreserve_frame (t : TrainId) (z : ZoneId) (w : Work) : ∃ v, unreserve t z w = { w with zones := v } := by
  unfold unreserve
  split
  · exact ⟨_, rfl⟩
  · exact ⟨_, rfl⟩

theorem unreserve_keeps {β : Type} (g : Work → β) (hg : ∀ w v, g { w with zones := v } = g w) (t : TrainId) (z : ZoneId) (w : Work) :
    g (unreserve t z w) = g w := by
  obtain ⟨v, h⟩ := unreserve_frame t z w
  rw [h, hg]

theorem unreserve_zoneState (t : TrainId) (z y : ZoneId) (w : Work) :
    (unreserve t z w).zoneState y = if z = y ∧ w.zoneState y = some (.reserved t) then some .clear else w.zoneState y := by
  unfold unreserve
  by_cases h : z = y
  · subst h
    by_cases hr : w.zoneState z = some (.reserved t)
    · rw [if_pos hr, if_pos ⟨rfl, hr⟩, setZone_zoneState, if_pos rfl, hr]
      rfl
    · rw [if_neg hr, if_neg fun x => hr x.2]
  · have hno : ¬(z = y ∧ w.zoneState y = some (.reserved t)) := fun x => h x.1
    rw [if_neg hno]
    split
    · rw [setZone_zoneState, if_neg h]
    · rfl

/-- The zones a train gives back become CLEAR where they are RESERVED by it (R19). -/
theorem unreserveAll_zoneState (t : TrainId) (zs : List ZoneId) (y : ZoneId) (w : Work) :
    (zs.foldl (fun w z => unreserve t z w) w).zoneState y =
      if y ∈ zs ∧ w.zoneState y = some (.reserved t) then some .clear else w.zoneState y := by
  induction zs generalizing w with
  | nil => simp
  | cons z zs ih =>
    rw [List.foldl_cons, ih, unreserve_zoneState]
    by_cases hr : w.zoneState y = some (.reserved t)
    · by_cases h : z = y
      · simp [h, hr]
      · simp [h, Ne.symm h, hr]
    · simp [hr]

section
variable (t : TrainId) (k : Nat) (w : Work)

/-- The zones of the leg entries removed. -/
def goneZones : List ZoneId := ((w.trains[t]).authority.drop k).flatMap (·.zones)

theorem mem_goneZones (z : ZoneId) : z ∈ goneZones t k w ↔ ∃ g ∈ (w.trains[t]).authority.drop k, z ∈ g.zones :=
  List.mem_flatMap

/-- The claim is for a leg that would begin at a removed destination (R58). -/
def endsWith (c : Claim) : Bool :=
  ((w.trains[t]).authority.drop k).any fun g => (g.zones.getLast?).any fun z => c.startsAt t z

theorem removeEntries_eq : removeEntries t k w = dropClaims (endsWith t k w)
    (((goneZones t k w).foldl (fun w z => unreserve t z w) w).modifyTrain t fun r => { r with authority := r.authority.take k }) := by
  have he : (fun c : Claim => (destinations ((w.trains[t]).authority.drop k)).any fun z => c.startsAt t z) = endsWith t k w := by
    funext c
    unfold destinations endsWith
    rw [List.any_filterMap]
    refine congrArg (List.any _) (funext fun g => ?_)
    cases g.zones.getLast? <;> rfl
  unfold removeEntries
  dsimp only
  rw [he]
  rfl

theorem unreserveAll_trains (zs : List ZoneId) (v : Work) : (zs.foldl (fun w z => unreserve t z w) v).trains = v.trains :=
  foldl_keeps (fun v => v.trains) (fun w z => unreserve t z w) (fun w z => unreserve_keeps (fun v => v.trains) (fun _ _ => rfl) t z w) zs v

theorem removeEntries_self : (removeEntries t k w).trains[t] = { w.trains[t] with authority := (w.trains[t]).authority.take k } := by
  rw [removeEntries_eq, dropClaims_trains, modifyTrain_self, unreserveAll_trains]

theorem removeEntries_other {u : TrainId} (h : u ≠ t) : (removeEntries t k w).trains[u] = w.trains[u] := by
  rw [removeEntries_eq, dropClaims_trains, modifyTrain_other _ _ h, unreserveAll_trains]

theorem removeEntries_zoneState (z : ZoneId) : (removeEntries t k w).zoneState z =
    if z ∈ goneZones t k w ∧ w.zoneState z = some (.reserved t) then some .clear else w.zoneState z := by
  rw [removeEntries_eq]
  exact unreserveAll_zoneState t _ z w

/-- What a record keeps when its zones, trains, claims and moves are set back to those of `w`. -/
def besidesEntries (w v : Work) : Work :=
  { v with zones := w.zones, trains := w.trains, claims := w.claims, line := w.line, switches := w.switches }

/-- Leg entries removed change zones, trains, claims and moves alone. -/
theorem removeEntries_frame : besidesEntries w (removeEntries t k w) = w := by
  have h := foldl_keeps (besidesEntries w) (fun v z => unreserve t z v)
    (fun v z => unreserve_keeps (besidesEntries w) (fun _ _ => rfl) t z v) (goneZones t k w) w
  rw [removeEntries_eq]
  exact h

theorem removeEntries_mode : (removeEntries t k w).mode = w.mode := by
  have h := congrArg (fun v : Work => v.mode) (removeEntries_frame t k w)
  exact h
theorem removeEntries_sections : (removeEntries t k w).sections = w.sections := by
  have h := congrArg (fun v : Work => v.sections) (removeEntries_frame t k w)
  exact h
theorem removeEntries_posts : (removeEntries t k w).posts = w.posts := by
  have h := congrArg (fun v : Work => v.posts) (removeEntries_frame t k w)
  exact h

theorem removeEntries_claims : (removeEntries t k w).claims = ((w.claims ++ w.line).filter fun c => !endsWith t k w c).take 12 ∧
    (removeEntries t k w).line = ((w.claims ++ w.line).filter fun c => !endsWith t k w c).drop 12 := by
  have hc := foldl_keeps (fun v => v.claims ++ v.line) (fun v z => unreserve t z v)
    (fun v z => unreserve_keeps (fun v => v.claims ++ v.line) (fun _ _ => rfl) t z v) (goneZones t k w) w
  rw [removeEntries_eq, dropClaims_claims, dropClaims_line, Work.modifyTrain_claims, Work.modifyTrain_line]
  rw [hc]
  exact ⟨rfl, rfl⟩

theorem removeEntries_all : (removeEntries t k w).claims ++ (removeEntries t k w).line =
    (w.claims ++ w.line).filter fun c => !endsWith t k w c := by
  rw [(removeEntries_claims t k w).1, (removeEntries_claims t k w).2, List.take_append_drop]

end

/-! ### Claims withdrawn and returned (R102, R103, R110) -/

/-- A withdrawn SECTION claim leaves. -/
theorem withdrawClaim_section {c : Claim} {g : SectionClaim} (h : c.body = .sectionOf g) (w : Work) :
    withdrawClaim c w = dropClaims (fun d => d.same c) (releaseEntryOf c w) := by
  unfold withdrawClaim
  rw [h]

/-- A withdrawn LEG claim leaves, and then its train is judged. -/
theorem withdrawClaim_leg {c : Claim} {g : LegClaim} (h : c.body = .leg g) (w : Work) :
    withdrawClaim c w = standIfClaimless g.train (dropClaims (fun d => d.same c) (releaseEntryOf c w)) := by
  unfold withdrawClaim
  rw [h]

theorem any_startsAt_false {cs : List Claim} {t : TrainId} {z : ZoneId} :
    (cs.any fun c => c.startsAt t z) = false ↔ ∀ d ∈ cs, d.startsAt t z = false := by simp

/-- A train is left without a claim from its rest zone. -/
def claimless (t : TrainId) (w : Track) (z : ZoneId) : Prop :=
  (w.trains[t]).state = .claiming ∧ (w.trains[t]).footprint = [z] ∧ ∀ d ∈ w.claims ++ w.line, d.startsAt t z = false

theorem rest_some {r : Train} {z : ZoneId} : r.rest = some z ↔ r.footprint = [z] := by
  unfold Train.rest
  split
  · next h => rw [h]; simp
  · next h => exact ⟨nofun, fun e => absurd e (h z)⟩

theorem standIfClaimless_alone {t : TrainId} {w : Work} {z : ZoneId} (h : claimless t w.toTrack z) :
    standIfClaimless t w = w.setTrain t { w.trains[t] with state := .standing } := by
  obtain ⟨hs, hf, hc⟩ := h
  have ha : (w.allClaims.any fun c => c.startsAt t z) = false := any_startsAt_false.2 hc
  unfold standIfClaimless Work.modifyTrain
  simp only [hs, rest_some.2 hf, ha]
  rfl

theorem standIfClaimless_claimed {t : TrainId} {w : Work} (h : ∀ z, ¬ claimless t w.toTrack z) : standIfClaimless t w = w := by
  refine modifyTrain_same_record w t _ ?_
  split
  · next z hs hr =>
    split
    · rfl
    · next ha =>
      exact absurd ⟨hs, rest_some.1 hr, any_startsAt_false.1 (eq_false_of_ne_true ha)⟩ (h z)
  · rfl

theorem same_self (c : Claim) : c.same c = true := by simp [Claim.same]

end Sys2Proof.Machine

namespace Sys2Proof.Proofs
open Sys2Proof.Machine

/-- Settles O47: the leg entries by the lemmas on `removeEntries`, the claims by what each operation makes of them, the arrival by
which claim the move serves. -/
theorem legsAndClaimsGivenBack : Obligations.LegsAndClaimsGivenBack := by
  refine ⟨fun t k w => ⟨removeEntries_self t k w, fun u hu => removeEntries_other t k w hu, fun z hz hr => ?_, fun z hz => ?_,
      removeEntries_claims t k w⟩, fun c w => ?_, fun c g ns w hs hb => ?_, fun n w => ?_⟩
  · rw [removeEntries_zoneState, if_pos ⟨(mem_goneZones t k w z).2 hz, hr⟩]
  · rw [removeEntries_zoneState, if_neg]
    rintro ⟨hm, hr⟩
    obtain ⟨g, hg, hz'⟩ := (mem_goneZones t k w z).1 hm
    rcases hz with hz | hz
    · exact hz g hg hz'
    · exact hz hr
  · intro w1 w2
    have hw1 : w1 = releaseEntryOf c w := by
      show (match c.state, c.body with | .setting _, .leg g => _ | _, _ => w) = _
      unfold releaseEntryOf
      cases c.state <;> cases c.body <;> rfl
    have hw2 : w2 = dropClaims (fun d => d.same c) (releaseEntryOf c w) := by rw [← hw1]; rfl
    rw [hw2]
    refine ⟨fun g hb => withdrawClaim_section hb w, fun g hb => ⟨fun z hz => ?_, fun hz => ?_⟩⟩
    · rw [withdrawClaim_leg hb]
      exact standIfClaimless_alone hz
    · rw [withdrawClaim_leg hb]
      exact standIfClaimless_claimed hz
  · intro w1 back v
    have hr : releaseEntryOf c w = w1 := by
      unfold releaseEntryOf
      rw [hs, hb]
      rfl
    have hv : v = unserve [c] (mapClaims back w1) := by rw [← hr]; rfl
    rw [hv]
    refine ⟨rfl, rfl, rfl, rfl, fun n hn r q l hr hm => ?_, fun n hn => ?_⟩
    · exact unserve_served (w := mapClaims back w1) hr hm ⟨c, List.mem_singleton_self c, (c.servedBy_iff n c.seq).2 ⟨rfl, ns, hs, hn⟩⟩
    · refine unserve_other (w := mapClaims back w1) fun r q l k hr hm d hd => eq_false_of_ne_true fun hsv => ?_
      obtain rfl := List.mem_singleton.1 hd
      obtain ⟨rfl, ms, hms, hmem⟩ := (d.servedBy_iff n k).1 hsv
      obtain rfl : ns = ms := by rw [hs] at hms; cases hms; rfl
      rcases hn with hn | hn
      · exact hn hmem
      · exact hn r q l hr hm
  · refine ⟨arriveFor_none rfl, fun p => arriveFor_none rfl, fun k => ⟨fun hno => ?_, fun as bs c ns hcs hk hst hn has =>
      ⟨fun hall => ?_, fun hmore => ?_⟩⟩⟩
    · exact arriveFor_none ((servedClaim_none _ n k).2 fun c hc => eq_false_of_ne_true fun h => hno c hc ((c.servedBy_iff n k).1 h))
    all_goals
      have hserved : servedClaim w.toTrack n (.claim k) = some c := (servedClaim_iff ..).2
        ⟨k, rfl, (c.servedBy_iff n k).2 ⟨hk, ns, hst, hn⟩, as, bs, hcs,
          fun a ha => eq_false_of_ne_true fun h => has a ha ((a.servedBy_iff n k).1 h)⟩
    · exact arriveFor_last hserved hst hall
    · exact arriveFor_more hserved hst hmore

end Sys2Proof.Proofs
end

section
/-! SUPPORT. A LOST train, a faulted zone (R19, R64), and the notices a lost attempt posts (R105). -/

namespace Sys2Proof.Machine

/-- The abort notice goes to port 0 and to the port of the claim (R105). -/
theorem postAbort_progress (t : TrainId) (cause : AbortCause) (a : Track) (w : Work) :
    postAbort t (progressOrigin a t) cause w = { w with posts := w.posts ++ a.abortPosts t (abortCode cause) } := by
  unfold postAbort Track.abortPosts
  cases progressOrigin a t with
  | none => simp
  | some o => cases o <;> simp [Work.post]

section
variable (t : TrainId) (w : Work)

theorem loseTrain_eq : loseTrain t w =
    ({ dropClaims (fun c => c.isLegOf t) w with posts := w.posts ++ w.abortPosts t 8 }.setZones
      ((w.trains[t]).footprint ++ (w.trains[t]).ahead) .unknown).modifyTrain t Train.toLost := by
  unfold loseTrain
  dsimp only
  rw [postAbort_progress]
  rfl

/-- The record of a LOST train. -/
theorem loseTrain_self : (loseTrain t w).trains[t] = (w.trains[t]).toLost := by
  rw [loseTrain_eq, modifyTrain_self, setZones_trains]
  rfl

theorem loseTrain_other {u : TrainId} (h : u ≠ t) : (loseTrain t w).trains[u] = w.trains[u] := by
  rw [loseTrain_eq, modifyTrain_other _ _ h, setZones_trains]
  rfl

/-- The zones of a LOST train become UNKNOWN (R64). -/
theorem loseTrain_zoneState (z : ZoneId) : (loseTrain t w).zoneState z =
    if z ∈ (w.trains[t]).footprint ++ (w.trains[t]).ahead then (w.zoneState z).map fun _ => .unknown else w.zoneState z := by
  rw [loseTrain_eq]
  exact setZones_zoneState _ _ _ _

theorem loseTrain_posts : (loseTrain t w).posts = w.posts ++ w.abortPosts t 8 := by
  rw [loseTrain_eq, Work.modifyTrain_posts, setZones_posts]

/-- The LEG claims of a LOST train leave. -/
theorem loseTrain_claims : (loseTrain t w).claims ++ (loseTrain t w).line = (w.claims ++ w.line).filter fun c => !c.isLegOf t := by
  rw [loseTrain_eq, Work.modifyTrain_claims, Work.modifyTrain_line, setZones_claims, setZones_line]
  exact dropClaims_all _ _

/-- A record with its zones, trains, claims, moves and notices set back to those of `w`. -/
def besidesLoss (w v : Work) : Work :=
  { v with zones := w.zones, trains := w.trains, claims := w.claims, line := w.line, switches := w.switches, posts := w.posts }

theorem loseTrain_frame : besidesLoss w (loseTrain t w) = w := by
  have h := foldl_keeps (besidesLoss w) (fun w z => w.setZone z .unknown) (fun _ _ => rfl)
    ((w.trains[t]).footprint ++ (w.trains[t]).ahead) { dropClaims (fun c => c.isLegOf t) w with posts := w.posts ++ w.abortPosts t 8 }
  rw [loseTrain_eq]
  exact h

end

/-! ### Faulted zones -/

/-- What a fault makes of a zone's state: a FAULT and a HANDED zone keep theirs. -/
def faulted (k : ZoneFault) : ZoneState → ZoneState
  | .fault x => .fault x
  | .handed p => .handed p
  | .clear | .reserved _ | .occupied _ | .clearing _ _ | .unknown => .fault k

theorem faultZone_zoneState (k : ZoneFault) (z y : ZoneId) (w : Work) :
    (faultZone k z w).zoneState y = if z = y then (w.zoneState y).map (faulted k) else w.zoneState y := by
  by_cases h : z = y
  · subst h
    rw [if_pos rfl]
    unfold faultZone
    cases hz : w.zoneState z with
    | none => simp [hz]
    | some s => cases s <;> simp [hz, faulted, setZone_zoneState]
  · rw [if_neg h]
    unfold faultZone
    split
    · rfl
    · rfl
    · rw [setZone_zoneState, if_neg h]
    · rfl

/-- A fault changes zone records alone. -/
theorem faultZone_frame (k : ZoneFault) (z : ZoneId) (w : Work) : ∃ v, faultZone k z w = { w with zones := v } := by
  unfold faultZone
  split <;> exact ⟨_, rfl⟩

theorem faultEach_keeps {β : Type} (g : Work → β) (hg : ∀ w v, g { w with zones := v } = g w) (k : ZoneFault) (zs : List ZoneId)
    (w : Work) : g (zs.foldl (fun w z => faultZone k z w) w) = g w :=
  foldl_keeps g (fun w z => faultZone k z w) (fun w z => by obtain ⟨v, h⟩ := faultZone_frame k z w; rw [h, hg]) zs w

theorem faulted_idem (k : ZoneFault) (s : ZoneState) : faulted k (faulted k s) = faulted k s := by cases s <;> rfl

theorem faultEach_zoneState (k : ZoneFault) (zs : List ZoneId) (y : ZoneId) (w : Work) :
    (zs.foldl (fun w z => faultZone k z w) w).zoneState y = if y ∈ zs then (w.zoneState y).map (faulted k) else w.zoneState y := by
  induction zs generalizing w with
  | nil => simp
  | cons z zs ih =>
    rw [List.foldl_cons, ih, faultZone_zoneState]
    by_cases h : z = y
    · subst h
      cases w.zoneState z <;> simp [faulted_idem]
    · simp [h, Ne.symm h]

theorem mem_trainsAt (w : Track) (zs : List ZoneId) (t : TrainId) :
    t ∈ trainsAt w zs ↔ ∃ z ∈ zs, w.zoneState z = some (.reserved t) ∨ w.zoneState z = some (.occupied t) := by
  have hz : ∀ o : Option ZoneState, o.bind zoneTrain = some t ↔ o = some (.reserved t) ∨ o = some (.occupied t) := by
    intro o
    cases o with
    | none => simp
    | some s => cases s <;> simp [zoneTrain]
  unfold trainsAt
  simp [mem_trainIds, hz]

/-- The one train that the zones are RESERVED for or OCCUPIED by. -/
theorem trainsAt_one {w : Track} {z : ZoneId} {zs : List ZoneId} {t : TrainId}
    (h : ∀ x ∈ z :: zs, w.zoneState x = some (.reserved t) ∨ w.zoneState x = some (.occupied t)) : trainsAt w (z :: zs) = [t] := by
  have hm : ∀ u, u ∈ trainsAt w (z :: zs) ↔ u = t := by
    intro u
    rw [mem_trainsAt]
    constructor
    · rintro ⟨x, hx, hu⟩
      rcases h x hx with ht | ht <;> rw [ht] at hu <;> simpa [eq_comm] using hu
    · rintro rfl
      exact ⟨z, List.mem_cons_self, h z List.mem_cons_self⟩
  have hn : (trainsAt w (z :: zs)).Nodup := List.Nodup.filter _ (List.nodup_finRange _)
  exact List.perm_singleton.1 ((List.perm_ext_iff_of_nodup hn (List.nodup_singleton t)).2 fun u => by
    rw [hm, List.mem_singleton])

theorem trainsAt_none {w : Track} {z : ZoneId}
    (h : ∀ t, w.zoneState z ≠ some (.reserved t) ∧ w.zoneState z ≠ some (.occupied t)) : trainsAt w [z] = [] := by
  refine List.eq_nil_iff_forall_not_mem.2 fun t ht => ?_
  obtain ⟨x, hx, hu⟩ := (mem_trainsAt _ _ _).1 ht
  obtain rfl := List.mem_singleton.1 hx
  exact hu.elim (h t).1 (h t).2

section
variable {k : ZoneFault} {z : ZoneId} {zs : List ZoneId} {t : TrainId} {w : Work}
variable (h : ∀ x ∈ z :: zs, w.zoneState x = some (.reserved t) ∨ w.zoneState x = some (.occupied t))
include h

theorem faultZones_one : faultZones k (z :: zs) w = (z :: zs).foldl (fun w z => faultZone k z w) (loseTrain t w) := by
  unfold faultZones
  rw [trainsAt_one h]
  rfl

/-- The faulted zones of one train: FAULT, its others UNKNOWN. -/
theorem faultZones_one_zoneState (y : ZoneId) : (faultZones k (z :: zs) w).zoneState y =
    if y ∈ z :: zs then some (.fault k)
    else if y ∈ (w.trains[t]).footprint ++ (w.trains[t]).ahead then (w.zoneState y).map fun _ => .unknown
    else w.zoneState y := by
  rw [faultZones_one h, faultEach_zoneState, loseTrain_zoneState]
  by_cases hy : y ∈ z :: zs
  · rw [if_pos hy, if_pos hy]
    rcases h y hy with hs | hs <;> rw [hs] <;> split <;> rfl
  · rw [if_neg hy, if_neg hy]

theorem faultZones_one_self : (faultZones k (z :: zs) w).trains[t] = (w.trains[t]).toLost := by
  rw [faultZones_one h, faultEach_keeps (fun v => v.trains) (fun _ _ => rfl), loseTrain_self]

theorem faultZones_one_other {u : TrainId} (hu : u ≠ t) : (faultZones k (z :: zs) w).trains[u] = w.trains[u] := by
  rw [faultZones_one h, faultEach_keeps (fun v => v.trains) (fun _ _ => rfl), loseTrain_other _ _ hu]

theorem faultZones_one_claims : (faultZones k (z :: zs) w).claims ++ (faultZones k (z :: zs) w).line =
    (w.claims ++ w.line).filter fun c => !c.isLegOf t := by
  rw [faultZones_one h, faultEach_keeps (fun v => v.claims) (fun _ _ => rfl), faultEach_keeps (fun v => v.line) (fun _ _ => rfl),
    loseTrain_claims]

theorem faultZones_one_posts : (faultZones k (z :: zs) w).posts = w.posts ++ w.abortPosts t 8 := by
  rw [faultZones_one h, faultEach_keeps (fun v => v.posts) (fun _ _ => rfl), loseTrain_posts]

end

/-- A zone that no train holds is faulted alone. -/
theorem faultZones_free {z : ZoneId} {w : Work} (k : ZoneFault)
    (h : ∀ t, w.zoneState z ≠ some (.reserved t) ∧ w.zoneState z ≠ some (.occupied t)) : faultZones k [z] w = faultZone k z w := by
  unfold faultZones
  rw [trainsAt_none h]
  rfl

theorem zoneState_ne_none {w : Track} {z : ZoneId} (h : w.zones[z] ≠ none) : ∃ s, w.zoneState z = some s :=
  Option.ne_none_iff_exists'.1 fun e => h ((zoneState_none w z).1 e)

theorem map_unknown {w : Track} {z : ZoneId} (h : w.zones[z] ≠ none) :
    (w.zoneState z).map (fun _ => ZoneState.unknown) = some .unknown := by
  obtain ⟨s, hs⟩ := zoneState_ne_none h
  rw [hs]
  rfl

/-- The response to a class S fault (R64, R66). -/
theorem respondHalt_active {w : Work} (e : Env) (n : NoticeName) (h : w.mode = .operating ∨ w.mode = .standby) :
    respondHalt e n w = postMode w.mode (.fault n) (rideHalt e .halted w) := by
  unfold respondHalt
  split
  · rfl
  · rfl
  all_goals
    next hm =>
    rw [hm] at h
    exact absurd h (by simp)

theorem respondHalt_other {w : Work} (e : Env) (n : NoticeName) (ho : w.mode ≠ .operating) (hs : w.mode ≠ .standby) :
    respondHalt e n w = w := by
  unfold respondHalt
  split
  · next hm => exact absurd hm ho
  · next hm => exact absurd hm hs
  all_goals rfl

theorem raiseHalt_active {w : Work} (e : Env) (n : NoticeName) (x : Subject) (a b : Byte)
    (h : w.mode = .operating ∨ w.mode = .standby) :
    raiseHalt e n x a b w = postMode w.mode (.fault n) (rideHalt e .halted (w.post [0] n x a b)) := by
  unfold raiseHalt
  exact respondHalt_active (w := w.post [0] n x a b) e n h

theorem raiseHalt_other {w : Work} (e : Env) (n : NoticeName) (x : Subject) (a b : Byte) (ho : w.mode ≠ .operating)
    (hs : w.mode ≠ .standby) : raiseHalt e n x a b w = w.post [0] n x a b := by
  unfold raiseHalt
  exact respondHalt_other (w := w.post [0] n x a b) e n ho hs

/-- The zones before the one seen, of the zones ahead of the head. -/
theorem missSensor_skipped {t : TrainId} {z y : ZoneId} {ys zs : List ZoneId} {w : Work} (e : Env)
    (ha : (w.trains[t]).ahead = y :: ys ++ z :: zs) (hz : z ∉ y :: ys) :
    missSensor e t z w = raiseHalt e .sensorMissed (.zone y) (byteOf t.val) 0xFF (faultZones .sensorMissed (y :: ys) w) := by
  have htake : (w.trains[t]).ahead.takeWhile (fun x => decide (x ≠ z)) = y :: ys := by
    rw [ha, List.takeWhile_append_of_pos, List.takeWhile_cons_of_neg (by simp), List.append_nil]
    exact fun x hx => decide_eq_true fun e => hz (e ▸ hx)
  unfold missSensor
  rw [htake]

end Sys2Proof.Machine

namespace Sys2Proof.Proofs
open Sys2Proof.Machine

/-- Settles O52: by what holds the zone. -/
theorem faultOutcomes : Obligations.FaultOutcomes := by
  refine fun k z w => ⟨fun h => ?_, fun h => ?_, fun t h => ?_⟩
  · rw [faultZones_free]
    · unfold faultZone
      rcases h with h | h | ⟨t, n, h⟩ <;> rw [h]
    · rcases h with h | h | ⟨t, n, h⟩ <;> simp [h]
  · rw [faultZones_free]
    · unfold faultZone
      rcases h with h | ⟨x, h⟩ | ⟨p, h⟩ <;> rw [h]
    · rcases h with h | ⟨x, h⟩ | ⟨p, h⟩ <;> simp [h]
  · have hz : ∀ x ∈ [z], w.zoneState x = some (.reserved t) ∨ w.zoneState x = some (.occupied t) := by simpa using h
    refine ⟨?_, faultZones_one_self hz, fun u => faultZones_one_other hz, fun y hy hm hd => ?_, fun y hy hm => ?_,
      faultZones_one_claims hz, faultZones_one_posts hz⟩
    · rw [faultZones_one_zoneState hz, if_pos (List.mem_singleton_self z)]
    · rw [faultZones_one_zoneState hz, if_neg (by simpa using hy), if_pos hm, map_unknown hd]
    · rw [faultZones_one_zoneState hz, if_neg (by simpa using hy), if_neg hm]

/-- Settles O40: the fault response by mode, the LOST train and the zones before the one seen by their lemmas. -/
theorem shortZoneAndMissedSensor : Obligations.ShortZoneAndMissedSensor := by
  refine ⟨fun e n x a b w => ⟨raiseHalt_active e n x a b, raiseHalt_other e n x a b⟩, fun e t z w => ⟨fun h => if_pos h, fun h => if_neg h,
      fun y h => ?_⟩, fun t w => ⟨loseTrain_self t w, fun u => loseTrain_other t w, fun y hm hd => ?_, fun y hm => ?_,
      loseTrain_claims t w, loseTrain_posts t w, ?_⟩, ?_⟩
  · unfold overrunShort Train.head
    rw [h]
    rfl
  · rw [loseTrain_zoneState, if_pos hm, map_unknown hd]
  · rw [loseTrain_zoneState, if_neg hm]
  · have h := loseTrain_frame t w
    unfold besidesLoss at h
    exact h
  · intro e t z y ys zs w r ha hz
    refine ⟨missSensor_skipped e ha hz, fun hr => ?_⟩
    have hs : ∀ x ∈ y :: ys, w.zoneState x = some (.reserved t) ∨ w.zoneState x = some (.occupied t) := fun x hx => .inl (hr x hx)
    have hlost : (faultZones .sensorMissed (y :: ys) w).trains[t] = (w.trains[t]).toLost := faultZones_one_self hs
    have hahead : r.ahead = y :: ys ++ z :: zs := ha
    refine ⟨fun x hx => ?_, ?_, ?_, ?_, fun u => faultZones_one_other hs, fun x hm hx hd => ?_, fun x hm => ?_,
      faultZones_one_claims hs, faultZones_one_posts hs⟩
    · rw [faultZones_one_zoneState hs, if_pos hx]
    · rw [hlost]; rfl
    · rw [hlost]; rfl
    · rw [hlost]; rfl
    · have hin : x ∈ (w.trains[t]).footprint ++ (w.trains[t]).ahead := by
        rw [ha, ← List.append_assoc]
        rcases List.mem_append.1 hm with hf | hf
        · exact List.mem_append_left _ (List.mem_append_left _ hf)
        · exact List.mem_append_right _ hf
      rw [faultZones_one_zoneState hs, if_neg hx, if_pos hin, map_unknown hd]
    · have hx : x ∉ y :: ys := fun hx => hm (by rw [hahead]; exact List.mem_append_right _ (List.mem_append_left _ hx))
      rw [faultZones_one_zoneState hs, if_neg hx, if_neg hm]

end Sys2Proof.Proofs
end

section
/-! SUPPORT. What the release rule makes of the zones and the trains (R28 to R30, R65). -/

namespace Sys2Proof.Machine

theorem applyRelease_zone (e : Env) (w : Work) (z : ZoneId) :
    (applyRelease e w).zones[z] = (w.zones[z]).map (releaseZone e w.toTrack z) := by
  unfold applyRelease
  rw [show (clearTrains e (commandHolds e w)).zones = (commandHolds e w).zones from rfl]
  unfold commandHolds
  exact vector_get_ofFn _ _

theorem releaseZone_noBrake {r : Zone} (e : Env) (w : Track) (z : ZoneId) (h : r.brake = none) : releaseZone e w z r = r := by
  unfold releaseZone
  rw [h, Option.map_none, ← h]

theorem releaseZone_kept {r : Zone} {b : Brake} {w : Track} {z : ZoneId} (e : Env) (h : r.brake = some b)
    (hb : b.hold = wantedHold w z) : releaseZone e w z r = r := by
  unfold releaseZone Brake.command
  rw [h, Option.map_some, if_pos hb, ← h]

theorem releaseZone_commanded {r : Zone} {b : Brake} {w : Track} {z : ZoneId} (e : Env) (h : r.brake = some b)
    (hb : b.hold ≠ wantedHold w z) : releaseZone e w z r =
      { r with brake := some { hold := wantedHold w z, supervision := .awaiting (e.layout.holdConfirm * 50) } } := by
  unfold releaseZone Brake.command
  rw [h, Option.map_some, if_neg hb]
  rfl

/-- A STANDING or CLAIMING train is at rest in a zone whose leg is held whole (R65). -/
def opensFor (w : Track) (r : Train) (z : ZoneId) : Prop :=
  (r.state = .standing ∨ r.state = .claiming) ∧ r.footprint = [z] ∧ w.trainMayPass z

theorem clearTrain_opens {w : Track} {r : Train} {z : ZoneId} (e : Env) (h : opensFor w r z) :
    clearTrain e w r = { r with state := .cleared, departure := some (((e.zone z).map windowMs).getD 0) } := by
  obtain ⟨hs, hf, hp⟩ := h
  unfold clearTrain
  rcases hs with hs | hs <;> simp only [hs, rest_some.2 hf, (trainReleases_iff w z).2 hp, if_true]

theorem clearTrain_stays {w : Track} {r : Train} (e : Env) (h : ∀ z, ¬ opensFor w r z) : clearTrain e w r = r := by
  unfold clearTrain
  split
  · next z hs hr => rw [if_neg fun hp => h z ⟨.inl hs, rest_some.1 hr, (trainReleases_iff w z).1 hp⟩]
  · next z hs hr => rw [if_neg fun hp => h z ⟨.inr hs, rest_some.1 hr, (trainReleases_iff w z).1 hp⟩]
  · rfl

theorem commandHolds_mayPass (e : Env) (w : Work) (z : ZoneId) : (commandHolds e w).trainMayPass z ↔ w.trainMayPass z := by
  unfold Track.trainMayPass Track.switchState
  simp only [commandHolds_mode, commandHolds_trains, commandHolds_switches]

theorem opensFor_commanded (e : Env) (w : Work) (r : Train) (z : ZoneId) :
    opensFor (commandHolds e w).toTrack r z ↔ opensFor w.toTrack r z := by
  unfold opensFor
  rw [commandHolds_mayPass]

theorem applyRelease_train (e : Env) (w : Work) (t : TrainId) :
    (applyRelease e w).trains[t] = clearTrain e (commandHolds e w).toTrack (w.trains[t]) := by
  unfold applyRelease clearTrains
  dsimp only
  rw [vector_get_ofFn, commandHolds_trains]

theorem applyRelease_opens {w : Work} {t : TrainId} {z : ZoneId} (e : Env) (h : opensFor w.toTrack (w.trains[t]) z) :
    (applyRelease e w).trains[t] =
      { w.trains[t] with state := .cleared, departure := some (((e.zone z).map windowMs).getD 0) } := by
  rw [applyRelease_train, clearTrain_opens e ((opensFor_commanded e w _ z).2 h)]

theorem applyRelease_stays {w : Work} {t : TrainId} (e : Env) (h : ∀ z, ¬ opensFor w.toTrack (w.trains[t]) z) :
    (applyRelease e w).trains[t] = w.trains[t] := by
  rw [applyRelease_train, clearTrain_stays e fun z hz => h z ((opensFor_commanded e w _ z).1 hz)]

theorem zonesAndTrains_restored (w : Work) (zs : Vector (Option Zone) 32) (ts : Vector Train 8) :
    { { w with zones := zs, trains := ts } with zones := w.zones, trains := w.trains } = w := rfl

/-- The rule changes zones and trains alone. -/
theorem applyRelease_frame (e : Env) (w : Work) : { applyRelease e w with zones := w.zones, trains := w.trains } = w := by
  unfold applyRelease clearTrains commandHolds
  exact zonesAndTrains_restored w _ _

end Sys2Proof.Machine

namespace Sys2Proof.Proofs
open Sys2Proof.Machine

/-- Settles O51: zone by zone and train by train. -/
theorem releaseEffects : Obligations.ReleaseEffects := by
  refine fun e w => ⟨fun z h => ?_, fun z r h hb => ?_, fun z r b h hb => ⟨wantedHold w.toTrack z, wantedHold_iff _ _, fun hk => ?_,
    fun hk => ?_⟩, fun t => ⟨fun z l n h hl hn => ?_, fun h => applyRelease_stays e h⟩, applyRelease_frame e w⟩
  · rw [applyRelease_zone, h, Option.map_none]
  · rw [applyRelease_zone, h, Option.map_some, releaseZone_noBrake e _ z hb]
  · rw [applyRelease_zone, h, Option.map_some, releaseZone_kept e hb hk]
  · rw [applyRelease_zone, h, Option.map_some, releaseZone_commanded e hb hk]
  · rw [applyRelease_opens e h]
    unfold Env.zone
    rw [hl, Option.map_some]
    unfold windowMs
    rw [hn]
    rfl

end Sys2Proof.Proofs
end

section
/-! SUPPORT. Head and tail events (R47, R51, R61, R66, R90): a train's record, the zones, the notice and the onward claim. -/

namespace Sys2Proof.Machine

/-! ### Onward claims (R59, R60) -/

theorem hasPending_iff (w : Track) (t : TrainId) :
    hasPending w t = true ↔ ∃ c ∈ w.claims ++ w.line, c.isLegOf t = true ∧ c.state = .waiting := by
  have hw : ∀ c : Claim, c.isWaiting = true ↔ c.state = .waiting := by
    intro c
    unfold Claim.isWaiting
    cases c.state <;> simp
  unfold hasPending Track.allClaims
  simp only [List.any_eq_true, Bool.and_eq_true, hw]

/-- A claim that arrives changes claims and their numbers alone. -/
theorem arriveClaim_frame (b : ClaimBody) (o : Option Nat) (w : Work) :
    ∃ cl li n, arriveClaim b o w = { w with claims := cl, line := li, nextSeq := n } := by
  unfold arriveClaim
  dsimp only
  split
  · exact ⟨_, w.line, _, rfl⟩
  · exact ⟨w.claims, _, _, rfl⟩

section
variable {e : Env} {t : TrainId} {b : StepId} {fs : List Frame} {w : Work} {d : Ride}

theorem formOnward_frame (e : Env) (t : TrainId) (b : StepId) (fs : List Frame) (w : Work) :
    ∃ cl li n, formOnward e t b fs w = { w with claims := cl, line := li, nextSeq := n } := by
  unfold formOnward formClaim
  cases (w.trains[t]).ride with
  | none => exact ⟨_, _, _, rfl⟩
  | some d =>
    dsimp only
    split
    · next v h =>
      split at h
      · cases h
      · split at h
        · cases h
        · split at h
          · split at h
            · cases h; exact arriveClaim_frame _ _ _
            · cases h
          · cases h
    · exact ⟨_, _, _, rfl⟩
    · exact ⟨_, _, _, rfl⟩

/-- No claim is formed outside an occasion (R59). -/
theorem formOnward_quiet (hd : (w.trains[t]).ride = some d)
    (h : w.mode ≠ .operating ∨ hasPending w.toTrack t = true ∨ d.atEnd = true ∨ d.stalled = true) : formOnward e t b fs w = w := by
  unfold formOnward formClaim
  simp only [hd, if_pos h]

theorem formOnward_ended (hd : (w.trains[t]).ride = some d) (hs : selectStep e.routes[d.route] b fs = none) :
    formOnward e t b fs w = w := by
  unfold formOnward formClaim
  simp only [hd, hs]
  split
  · next h => split at h <;> cases h
  · rfl
  · rfl

theorem formOnward_claims {k : Decision} {x y : RouteStep} {q : Leg} (hd : (w.trains[t]).ride = some d)
    (h : ¬(w.mode ≠ .operating ∨ hasPending w.toTrack t = true ∨ d.atEnd = true ∨ d.stalled = true))
    (hs : selectStep e.routes[d.route] b fs = some k) (hx : e.step d.route b = some x) (hy : e.step d.route k.target = some y)
    (hq : legBetween e.layout x.zone y.zone = some q) : formOnward e t b fs w = arriveClaim (.leg {
      train := t, origin := .auto, start := q.start, zones := q.zones, reqs := q.reqs, decision := k }) none w := by
  unfold formOnward formClaim
  simp only [hd, if_neg h, hs, hx, hy, hq]

/-- The claim formed at the start of a leg: its occasion (R60, R61). -/
def onwardDue (e : Env) (g : LegEntry) (w : Track) (t : TrainId) (d : Ride) : Prop :=
  g.started = false ∧ g.onward = false ∧ (e.step d.route g.target).map (·.action) = some .pass ∧ w.mode = .operating ∧
    ¬(∃ c ∈ w.claims ++ w.line, c.isLegOf t = true ∧ c.state = .waiting) ∧ d.atEnd = false ∧ d.stalled = false

theorem targetIsPass_iff (hd : (w.trains[t]).ride = some d) (s : StepId) :
    targetIsPass e w.toTrack t s = true ↔ (e.step d.route s).map (·.action) = some .pass := by
  unfold targetIsPass
  rw [hd]
  dsimp only
  cases e.step d.route s <;> simp

theorem onwardAtStart_frame (e : Env) (t : TrainId) (g : LegEntry) (w : Work) :
    ∃ cl li n, onwardAtStart e t g w = { w with claims := cl, line := li, nextSeq := n } := by
  unfold onwardAtStart
  split
  · split
    · exact formOnward_frame _ _ _ _ _
    · exact ⟨_, _, _, rfl⟩
  · exact ⟨_, _, _, rfl⟩

theorem onwardAtStart_due {g : LegEntry} (hd : (w.trains[t]).ride = some d) (h : onwardDue e g w.toTrack t d) :
    onwardAtStart e t g w = formOnward e t g.target d.frames w := by
  obtain ⟨hs, ho, hp, -⟩ := h
  have ht := (targetIsPass_iff hd g.target).2 hp
  unfold onwardAtStart
  rw [hd]
  dsimp only
  rw [hs, ho, ht]
  rfl

theorem onwardAtStart_quiet {g : LegEntry} (h : ∀ d, (w.trains[t]).ride = some d → ¬ onwardDue e g w.toTrack t d) :
    onwardAtStart e t g w = w := by
  unfold onwardAtStart
  split
  · next d hd =>
    split
    · next hc =>
      simp only [Bool.and_eq_true, Bool.not_eq_true', targetIsPass_iff hd] at hc
      refine formOnward_quiet hd ?_
      by_contra hno
      simp only [not_or, Bool.not_eq_true] at hno
      obtain ⟨⟨hs, hp⟩, ho⟩ := hc
      obtain ⟨hm, hq, ha, hst⟩ := hno
      exact h d hd ⟨hs, ho, hp, not_not.1 hm, fun hx => by simp [(hasPending_iff _ _).2 hx] at hq, ha, hst⟩
    · rfl
  · rfl

end

/-! ### The head (R47, R61, R66) -/

theorem modifyTrain_modifyTrain (w : Work) (t : TrainId) (f g : Train → Train) :
    (w.modifyTrain t f).modifyTrain t g = w.modifyTrain t fun r => g (f r) := by
  have h : (w.trains.set t (f w.trains[t])).set t (g ((w.trains.set t (f w.trains[t]))[t])) = w.trains.set t (g (f w.trains[t])) :=
    vector_ext fun u => by
      simp only [vector_get_set]
      split <;> simp
  unfold Work.modifyTrain Work.setTrain
  dsimp only
  rw [h]

/-- The record of a train whose head enters `z`, its leg's decision committed. -/
def advancedRecord (z : ZoneId) (g : LegEntry) (gs : List LegEntry) (r : Train) : Train :=
  commitDecision g { r with footprint := r.footprint ++ [z]
                            authority := { g with zones := g.zones.tail, started := true, decision := none } :: gs }

/-- The frame stack with a leg's decision committed. -/
def committedFrames (g : LegEntry) (d : Ride) : List Frame :=
  match g.decision with
  | some k => applyFrameOps d.frames k.ops
  | none => d.frames

theorem advancedRecord_eq (z : ZoneId) (g : LegEntry) (gs : List LegEntry) (r : Train) : advancedRecord z g gs r =
    { r with footprint := r.footprint ++ [z]
             authority := { g with zones := g.zones.tail, started := true, decision := none } :: gs
             ride := r.ride.map fun d => { d with frames := committedFrames g d } } := by
  unfold advancedRecord commitDecision committedFrames
  cases g.decision with
  | none => simp
  | some k => rfl

theorem onHead_eq (t : TrainId) (z : ZoneId) (g : LegEntry) (gs : List LegEntry) (w : Work) :
    (advanceHead t z g gs w).modifyTrain t (commitDecision g) =
      (w.setZone z (.occupied t)).modifyTrain t (advancedRecord z g gs) := modifyTrain_modifyTrain _ _ _ _

/-- A train departs at the head event that finds it CLEARED in one zone (R66). -/
def departsNow (r : Train) : Prop := r.state = .cleared ∧ ∃ y, r.footprint = [y]

/-- DEPARTED, for a leg that a DISPATCH claimed. -/
def departedPosts (t : TrainId) (g : LegEntry) : List Post :=
  match g.origin with
  | .dispatch p => [{ note := { name := .departed, subject := .train t, detail1 := byteOf g.start.val, detail2 := 0xFF }
                      named := [0, p] }]
  | _ => []

theorem postDeparted_eq (t : TrainId) (g : LegEntry) (w : Work) :
    postDeparted t (some g) w = { w with posts := w.posts ++ departedPosts t g } := by
  unfold postDeparted departedPosts
  cases h : g.origin <;> simp [h, Work.post]

/-- What stands after the head has entered a zone, before the onward claim and the destination. -/
def entered (e : Env) (t : TrainId) (z : ZoneId) (g : LegEntry) (gs : List LegEntry) (w : Work) : Work :=
  restartTravel e t z (departAtHead e t (w.trains[t]).rest ((advanceHead t z g gs w).modifyTrain t (commitDecision g)))

section
variable (e : Env) (t : TrainId) (z : ZoneId) (g : LegEntry) (gs : List LegEntry) {w : Work}

theorem entered_departs (h : departsNow w.trains[t]) : entered e t z g gs w =
    { (w.setZone z (.occupied t)).modifyTrain t fun r =>
        { advancedRecord z g gs r with state := .running, departure := none, travel := (e.zone z).bind travelMs } with
      posts := w.posts ++ departedPosts t g } := by
  obtain ⟨hs, y, hf⟩ := h
  have hstate : (((w.setZone z (.occupied t)).modifyTrain t (advancedRecord z g gs)).trains[t]).state = .cleared := by
    rw [modifyTrain_self, advancedRecord_eq]
    exact hs
  have hauth : (((w.setZone z (.occupied t)).modifyTrain t (advancedRecord z g gs)).trains[t]).authority.head? =
      some { g with zones := g.zones.tail, started := true, decision := none } := by
    rw [modifyTrain_self, advancedRecord_eq]
    rfl
  unfold entered departAtHead restartTravel
  rw [onHead_eq, rest_some.2 hf]
  simp only [hstate]
  unfold depart
  rw [hauth, postDeparted_eq, modifyTrain_modifyTrain]
  exact congrArg (fun v : Work => { v with posts := w.posts ++ departedPosts t g })
    (modifyTrain_modifyTrain (w.setZone z (.occupied t)) t
      (fun r => { advancedRecord z g gs r with state := .running, departure := none, travel := (e.zone y).bind travelMs })
      (fun r => { r with travel := (e.zone z).bind travelMs }))

theorem entered_stays (h : ¬ departsNow w.trains[t]) : entered e t z g gs w =
    (w.setZone z (.occupied t)).modifyTrain t fun r => { advancedRecord z g gs r with travel := (e.zone z).bind travelMs } := by
  have hstate : (((w.setZone z (.occupied t)).modifyTrain t (advancedRecord z g gs)).trains[t]).state = (w.trains[t]).state := by
    rw [modifyTrain_self, advancedRecord_eq]
    rfl
  have hno : ∀ v : Work, (v.trains[t]).state = (w.trains[t]).state → departAtHead e t (w.trains[t]).rest v = v := by
    intro v hv
    unfold departAtHead
    split
    · next y hc hy => exact absurd ⟨hv ▸ hc, y, rest_some.1 hy⟩ h
    · rfl
  unfold entered
  rw [onHead_eq, hno _ hstate]
  exact modifyTrain_modifyTrain _ _ _ _

/-- The record of a train whose leg's destination may have been reached. -/
def arrivedRecord (g : LegEntry) (r : Train) : Train :=
  match g.zones.tail with
  | [] => { r.mapRide fun d => { d with cursor := g.target } with authority := r.authority.drop 1 }
  | _ :: _ => r

theorem arriveAtDestination_eq (w : Work) : arriveAtDestination t g w = w.modifyTrain t (arrivedRecord g) := by
  unfold arriveAtDestination
  split
  · next h =>
    unfold arrivedRecord
    rw [h]
  · next h =>
    refine (modifyTrain_same_record w t _ ?_).symm
    unfold arrivedRecord
    rw [h]

theorem takeHead_eq (w : Work) : takeHead e t z g gs w =
    (onwardAtStart e t g (entered e t z g gs w)).modifyTrain t (arrivedRecord g) := arriveAtDestination_eq _ _ _

theorem takeHead_frame (w : Work) : ∃ cl li n, takeHead e t z g gs w =
    ({ entered e t z g gs w with claims := cl, line := li, nextSeq := n }).modifyTrain t (arrivedRecord g) := by
  obtain ⟨cl, li, n, h⟩ := onwardAtStart_frame e t g (entered e t z g gs w)
  exact ⟨cl, li, n, by rw [takeHead_eq, h]⟩

/-- What the head event makes of the train's record, whether it departs or not. -/
theorem entered_eq (w : Work) : ∃ st dp ps, entered e t z g gs w =
    { (w.setZone z (.occupied t)).modifyTrain t fun r =>
        { advancedRecord z g gs r with state := st, departure := dp, travel := (e.zone z).bind travelMs } with
      posts := w.posts ++ ps } ∧
    (departsNow w.trains[t] → st = .running ∧ dp = none ∧ ps = departedPosts t g) ∧
    (¬ departsNow w.trains[t] → st = (w.trains[t]).state ∧ dp = (w.trains[t]).departure ∧ ps = []) := by
  by_cases h : departsNow w.trains[t]
  · exact ⟨_, _, _, entered_departs e t z g gs h, fun _ => ⟨rfl, rfl, rfl⟩, fun hno => absurd h hno⟩
  · refine ⟨(w.trains[t]).state, (w.trains[t]).departure, [], ?_, fun hd => absurd hd h, fun _ => ⟨rfl, rfl, rfl⟩⟩
    have hkeep : (advancedRecord z g gs w.trains[t]).state = (w.trains[t]).state ∧
        (advancedRecord z g gs w.trains[t]).departure = (w.trains[t]).departure := by
      rw [advancedRecord_eq]
      exact ⟨rfl, rfl⟩
    rw [entered_stays e t z g gs h, List.append_nil]
    unfold Work.modifyTrain Work.setZone
    dsimp only
    rw [← hkeep.1, ← hkeep.2]
    rfl

/-- The record of the train after a head event, before its destination. -/
def enteredRecord (st : TrainState) (dp : Option Nat) (r : Train) : Train :=
  { r with
    state := st, footprint := r.footprint ++ [z], departure := dp, travel := (e.zone z).bind travelMs
    authority := { g with zones := g.zones.tail, started := true, decision := none } :: gs
    ride := r.ride.map fun d => { d with frames := committedFrames g d } }

/-- The head event by its parts. -/
theorem takeHead_parts (w : Work) : ∃ st dp ps, let v := takeHead e t z g gs w
    (departsNow w.trains[t] → st = .running ∧ dp = none ∧ ps = departedPosts t g) ∧
    (¬ departsNow w.trains[t] → st = (w.trains[t]).state ∧ dp = (w.trains[t]).departure ∧ ps = []) ∧
    v.trains[t] = arrivedRecord g (enteredRecord e z g gs st dp w.trains[t]) ∧ (∀ u : TrainId, u ≠ t → v.trains[u] = w.trains[u]) ∧
    v.zones = (w.setZone z (.occupied t)).zones ∧ v.posts = w.posts ++ ps ∧
    { v with zones := w.zones, trains := w.trains, claims := w.claims, line := w.line, nextSeq := w.nextSeq
             posts := w.posts } = w := by
  obtain ⟨st, dp, ps, he, hdep, hstay⟩ := entered_eq e t z g gs w
  obtain ⟨cl, li, n, h⟩ := takeHead_frame e t z g gs w
  refine ⟨st, dp, ps, hdep, hstay, ?_, fun u hu => ?_, ?_, ?_, ?_⟩
  · rw [h, modifyTrain_self, he]
    dsimp only
    rw [modifyTrain_self, advancedRecord_eq]
    rfl
  · rw [h, modifyTrain_other _ _ hu, he]
    dsimp only
    rw [modifyTrain_other _ _ hu]
    rfl
  · rw [h, he]; rfl
  · rw [h, he]; rfl
  · rw [h, he]; rfl

/-- Claims arrive alike where claims and numbers are alike. -/
theorem arriveClaim_congr {v w : Work} (b : ClaimBody) (o : Option Nat) (hc : v.claims = w.claims) (hl : v.line = w.line)
    (hn : v.nextSeq = w.nextSeq) : (arriveClaim b o v).claims = (arriveClaim b o w).claims ∧
      (arriveClaim b o v).line = (arriveClaim b o w).line ∧ (arriveClaim b o v).nextSeq = (arriveClaim b o w).nextSeq := by
  unfold arriveClaim
  rw [hc, hl, hn]
  dsimp only
  split <;> exact ⟨rfl, rfl, rfl⟩

/-- The head event reaches the claims only through the claim at the leg's start. -/
theorem takeHead_claims (w : Work) : let v := onwardAtStart e t g (entered e t z g gs w)
    (takeHead e t z g gs w).claims = v.claims ∧ (takeHead e t z g gs w).line = v.line ∧
      (takeHead e t z g gs w).nextSeq = v.nextSeq := by
  rw [takeHead_eq]
  exact ⟨rfl, rfl, rfl⟩

theorem entered_ride (w : Work) : ((entered e t z g gs w).trains[t]).ride =
    (w.trains[t]).ride.map fun d => { d with frames := committedFrames g d } := by
  obtain ⟨st, dp, ps, he, -, -⟩ := entered_eq e t z g gs w
  rw [he]
  dsimp only
  rw [modifyTrain_self, advancedRecord_eq]
  rfl

theorem entered_claims (w : Work) : (entered e t z g gs w).mode = w.mode ∧ (entered e t z g gs w).claims = w.claims ∧
    (entered e t z g gs w).line = w.line ∧ (entered e t z g gs w).nextSeq = w.nextSeq := by
  obtain ⟨st, dp, ps, he, -, -⟩ := entered_eq e t z g gs w
  rw [he]
  exact ⟨rfl, rfl, rfl, rfl⟩

/-- The occasion of the onward claim, told from before the head event. -/
theorem entered_due (w : Work) (d : Ride) : onwardDue e g (entered e t z g gs w).toTrack t { d with frames := committedFrames g d } ↔
    onwardDue e g w.toTrack t d := by
  obtain ⟨hm, hc, hl, -⟩ := entered_claims e t z g gs w
  unfold onwardDue
  rw [hm, hc, hl]

/-- No occasion: the claims stay (R61). -/
theorem takeHead_quiet {w : Work} (h : ∀ d, (w.trains[t]).ride = some d → ¬ onwardDue e g w.toTrack t d) :
    (takeHead e t z g gs w).claims = w.claims ∧ (takeHead e t z g gs w).line = w.line ∧
      (takeHead e t z g gs w).nextSeq = w.nextSeq := by
  obtain ⟨hc, hl, hn⟩ := takeHead_claims e t z g gs w
  obtain ⟨-, hc', hl', hn'⟩ := entered_claims e t z g gs w
  have hq : onwardAtStart e t g (entered e t z g gs w) = entered e t z g gs w := by
    refine onwardAtStart_quiet fun d hd => ?_
    rw [entered_ride, Option.map_eq_some_iff] at hd
    obtain ⟨d', hd', rfl⟩ := hd
    rw [entered_due]
    exact h d' hd'
  rw [hc, hl, hn, hq]
  exact ⟨hc', hl', hn'⟩

section
variable {e t z g gs} {d : Ride} (hd : (w.trains[t]).ride = some d) (h : onwardDue e g w.toTrack t d)
include hd h

theorem takeHead_onward : onwardAtStart e t g (entered e t z g gs w) =
    formOnward e t g.target (committedFrames g d) (entered e t z g gs w) := by
  have hr : ((entered e t z g gs w).trains[t]).ride = some { d with frames := committedFrames g d } := by
    rw [entered_ride, hd]
    rfl
  exact onwardAtStart_due hr ((entered_due e t z g gs w d).2 h)

theorem takeHead_ended (hs : selectStep e.routes[d.route] g.target (committedFrames g d) = none) :
    (takeHead e t z g gs w).claims = w.claims ∧ (takeHead e t z g gs w).line = w.line ∧
      (takeHead e t z g gs w).nextSeq = w.nextSeq := by
  obtain ⟨hc, hl, hn⟩ := takeHead_claims e t z g gs w
  obtain ⟨-, hc', hl', hn'⟩ := entered_claims e t z g gs w
  have hr : ((entered e t z g gs w).trains[t]).ride = some { d with frames := committedFrames g d } := by
    rw [entered_ride, hd]
    rfl
  rw [hc, hl, hn, takeHead_onward hd h, formOnward_ended hr hs]
  exact ⟨hc', hl', hn'⟩

theorem takeHead_claimed {k : Decision} {x y : RouteStep} {q : Leg}
    (hs : selectStep e.routes[d.route] g.target (committedFrames g d) = some k) (hx : e.step d.route g.target = some x)
    (hy : e.step d.route k.target = some y) (hq : legBetween e.layout x.zone y.zone = some q) :
    let u := arriveClaim (.leg { train := t, origin := .auto, start := q.start, zones := q.zones, reqs := q.reqs
                                 decision := k }) none w
    (takeHead e t z g gs w).claims = u.claims ∧ (takeHead e t z g gs w).line = u.line ∧
      (takeHead e t z g gs w).nextSeq = u.nextSeq := by
  obtain ⟨hc, hl, hn⟩ := takeHead_claims e t z g gs w
  obtain ⟨hm, hc', hl', hn'⟩ := entered_claims e t z g gs w
  have hr : ((entered e t z g gs w).trains[t]).ride = some { d with frames := committedFrames g d } := by
    rw [entered_ride, hd]
    rfl
  have honward := takeHead_onward (z := z) (gs := gs) hd h
  obtain ⟨-, -, -, ho, hp, ha, hst⟩ := h
  have hok : ¬((entered e t z g gs w).mode ≠ .operating ∨ hasPending (entered e t z g gs w).toTrack t = true ∨
      d.atEnd = true ∨ d.stalled = true) := by
    rw [hasPending_iff, hm, hc', hl', ha, hst]
    simpa [ho] using hp
  rw [hc, hl, hn, honward, formOnward_claims hr hok hs hx hy hq]
  exact arriveClaim_congr _ _ hc' hl' hn'

end

end

/-! ### The tail (R20, R21, R51) -/

/-- What a zone's state becomes when the tail has left it. -/
def vacated (e : Env) (t : TrainId) (z : ZoneId) : ZoneState :=
  match ((e.zone z).map settleMs).getD 0 with
  | 0 => .clear
  | n + 1 => .clearing t (n + 1)

theorem vacate_eq (e : Env) (t : TrainId) (z : ZoneId) (w : Work) : vacate e t z w = w.setZone z (vacated e t z) := by
  unfold vacate vacated
  cases ((e.zone z).map settleMs).getD 0 <;> rfl

theorem vacated_of_layout {e : Env} {t : TrainId} {z : ZoneId} {l : ZoneLayout} (h : e.layout.zones[z] = some l) :
    vacated e t z = if l.settle = 0 then .clear else .clearing t (l.settle * 100) := by
  unfold vacated Env.zone settleMs
  rw [h]
  simp only [Option.map_some, Option.getD_some]
  split
  · next h0 => rw [if_pos (by omega)]
  · next n hn => rw [if_neg (by omega), hn]

theorem vacateAll_zone (e : Env) (t : TrainId) (zs : List ZoneId) (y : ZoneId) (w : Work) :
    (zs.foldl (fun w z => vacate e t z w) w).zones[y] =
      if y ∈ zs then (w.zones[y]).map fun r => { r with state := vacated e t y } else w.zones[y] := by
  induction zs generalizing w with
  | nil => simp
  | cons z zs ih =>
    rw [List.foldl_cons, ih, vacate_eq, setZone_zone]
    by_cases h : z = y
    · subst h
      cases w.zones[z] <;> simp
    · simp [h, Ne.symm h]

/-- Zones vacated change zone records alone. -/
theorem vacateAll_frame (e : Env) (t : TrainId) (zs : List ZoneId) (w : Work) :
    ∃ v, zs.foldl (fun w z => vacate e t z w) w = { w with zones := v } := by
  refine ⟨(zs.foldl (fun w z => vacate e t z w) w).zones, ?_⟩
  induction zs generalizing w with
  | nil => rfl
  | cons z zs ih =>
    rw [List.foldl_cons, ih, vacate_eq]
    rfl

section
variable {e : Env} {t : TrainId} {z : ZoneId} {a b : List ZoneId} {w : Work}
variable (hf : (w.trains[t]).footprint = a ++ z :: b) (hz : z ∉ a)
include hf hz

theorem takeTail_eq : takeTail e t z w =
    (a.foldl (fun w y => vacate e t y w) w).modifyTrain t fun r => { r with footprint := z :: b } := by
  have hne : ∀ x ∈ a, decide (x ≠ z) = true := fun x hx => decide_eq_true fun h => hz (h ▸ hx)
  have htake : (a ++ z :: b).takeWhile (fun y => decide (y ≠ z)) = a := by
    rw [List.takeWhile_append_of_pos hne, List.takeWhile_cons_of_neg (by simp), List.append_nil]
  have hdrop : (a ++ z :: b).dropWhile (fun y => decide (y ≠ z)) = z :: b := by
    rw [List.dropWhile_append_of_pos hne, List.dropWhile_cons_of_neg (by simp)]
  unfold takeTail
  dsimp only
  rw [hf, htake, hdrop]

theorem takeTail_zone (y : ZoneId) : (takeTail e t z w).zones[y] =
    if y ∈ a then (w.zones[y]).map fun r => { r with state := vacated e t y } else w.zones[y] := by
  rw [takeTail_eq hf hz]
  exact vacateAll_zone e t a y w

theorem takeTail_self : (takeTail e t z w).trains[t] = { w.trains[t] with footprint := z :: b } := by
  obtain ⟨v, h⟩ := vacateAll_frame e t a w
  rw [takeTail_eq hf hz, modifyTrain_self, h]

theorem takeTail_other {u : TrainId} (hu : u ≠ t) : (takeTail e t z w).trains[u] = w.trains[u] := by
  obtain ⟨v, h⟩ := vacateAll_frame e t a w
  rw [takeTail_eq hf hz, modifyTrain_other _ _ hu, h]

theorem takeTail_frame : { takeTail e t z w with zones := w.zones, trains := w.trains } = w := by
  obtain ⟨v, h⟩ := vacateAll_frame e t a w
  rw [takeTail_eq hf hz, h]
  rfl

end

end Sys2Proof.Machine

namespace Sys2Proof.Proofs
open Sys2Proof.Machine

/-- Settles O39: the head event by its parts and by the occasion of the onward claim, the tail event by the zones vacated. -/
theorem trainsAdvanceAndClear : Obligations.TrainsAdvanceAndClear := by
  refine ⟨?_, ?_, ?_⟩
  · intro e t z g gs w _ hz v
    obtain ⟨st, dp, ps, -, -, hself, hother, hzones, -, -⟩ := takeHead_parts e t z g gs w
    have hstate : ∀ y, v.zoneState y = (w.setZone z (.occupied t)).zoneState y := fun y => by
      unfold Track.zoneState
      rw [show v.zones = _ from hzones]
    refine ⟨?_, ?_, fun y hy => ?_, hother, fun hg => ?_, fun y ys hg => ?_⟩
    · rw [show v.trains[t] = _ from hself]
      unfold arrivedRecord
      split <;> rfl
    · obtain ⟨s, hs⟩ := zoneState_ne_none hz
      rw [hstate, setZone_zoneState, if_pos rfl, hs]
      rfl
    · rw [hstate, setZone_zoneState, if_neg (Ne.symm hy)]
    · rw [show v.trains[t] = _ from hself]
      unfold arrivedRecord enteredRecord
      rw [hg]
      refine ⟨rfl, ?_⟩
      cases (w.trains[t]).ride <;> rfl
    · rw [show v.trains[t] = _ from hself]
      unfold arrivedRecord enteredRecord
      rw [hg]
      refine ⟨rfl, ?_⟩
      cases (w.trains[t]).ride <;> rfl
  · intro e t z g gs w r v committed departs
    obtain ⟨st, dp, ps, hdep, hstay, hself, -, -, hposts, hframe⟩ := takeHead_parts e t z g gs w
    have hride : ∀ {β : Type} (f : Ride → β), (∀ d c, f { d with cursor := c } = f d) →
        (v.trains[t]).ride.map f = r.ride.map fun d => f { d with frames := committedFrames g d } := by
      intro β f hf
      rw [show v.trains[t] = _ from hself]
      unfold arrivedRecord enteredRecord
      split
      · simp only [Train.mapRide, Option.map_map]
        exact congrArg (fun k => r.ride.map k) (funext fun d => hf _ _)
      · simp only [Option.map_map]
        rfl
    have hrecord : (v.trains[t]).state = st ∧ (v.trains[t]).departure = dp ∧ (v.trains[t]).travel = (e.zone z).bind travelMs := by
      rw [show v.trains[t] = _ from hself]
      unfold arrivedRecord
      split <;> exact ⟨rfl, rfl, rfl⟩
    obtain ⟨hst, hdp, htr⟩ := hrecord
    refine ⟨hride _ fun _ _ => rfl, hride _ fun _ _ => rfl, htr, fun hd => ?_, fun hd => ?_, hframe, ?_⟩
    · obtain ⟨h1, h2, h3⟩ := hdep hd
      refine ⟨hst.trans h1, hdp.trans h2, ?_⟩
      rw [show v.posts = _ from hposts, h3]
      unfold departedPosts
      cases g.origin <;> simp
    · obtain ⟨h1, h2, h3⟩ := hstay hd
      exact ⟨hst.trans h1, hdp.trans h2, by rw [show v.posts = _ from hposts, h3, List.append_nil]⟩
    · intro keeps pending occasion
      exact ⟨takeHead_quiet e t z g gs, fun d hd hdue => ⟨takeHead_ended hd hdue, fun k a b q hs ha hb hq =>
        takeHead_claimed hd hdue hs ha hb hq⟩⟩
  · intro e t z a b w hf hz
    refine ⟨fun y hy l hd hl => ?_, fun y hy => ?_, takeTail_self hf hz, fun u => takeTail_other hf hz, takeTail_frame hf hz⟩
    · unfold Track.zoneState
      rw [takeTail_zone hf hz, if_pos hy, vacated_of_layout hl]
      obtain ⟨x, hx⟩ := Option.ne_none_iff_exists'.1 hd
      rw [hx]
      rfl
    · rw [takeTail_zone hf hz, if_neg hy]

end Sys2Proof.Proofs
end

section
/-! SUPPORT. Events as they reach the track: runs that agree, runs that change nothing, and what an input reads after its change. -/

namespace Sys2Proof.Machine

/-! ### Runs -/

/-- Nothing posted, the track as it was: the state stays. -/
theorem put_work (s : State) : s.put s.work = s := by
  have hp : (Vector.ofFn fun p => deliverTo s.layout s.stamp p [] (s.ports[p])) = s.ports := vector_ext fun p => by
    rw [vector_get_ofFn]
    rfl
  unfold State.put State.deliver State.work
  dsimp only
  rw [hp]

/-- An event that does nothing on the track does nothing. -/
theorem run_same {s : State} {f : Env → Work → Work} (h : f s.env s.work = s.work) : s.run f = s := by
  unfold State.run
  rw [h, put_work]

theorem run_congr {s : State} {f g : Env → Work → Work} (h : f s.env s.work = g s.env s.work) : s.run f = s.run g := by
  unfold State.run
  rw [h]

/-- An event that posts no notice changes the track alone. -/
theorem put_quiet (s : State) (w : Work) (h : w.posts = []) : s.put w = { s with track := w.toTrack } := by
  have hp : (Vector.ofFn fun p => deliverTo s.layout s.stamp p [] (s.ports[p])) = s.ports := vector_ext fun p => by
    rw [vector_get_ofFn]
    rfl
  unfold State.put State.deliver
  dsimp only
  rw [h]
  unfold State.stamp at hp ⊢
  rw [hp]

/-! ### Input changes (R37, R38) -/

/-- The line of an input that has been given a level. -/
theorem inputLine_set_self (x : Inputs) (i : InputId) (y : Line) : inputLine (setInputLine x i y) i = y := by
  have hv : ∀ {n : Nat} (v : Vector Line n) (k : Fin n), (v.set k y)[k] = y := fun v k => by rw [vector_get_set, if_pos rfl]
  cases i with
  | position n q => cases q <;> exact hv _ n
  | entry z => exact hv _ z
  | stop z => exact hv _ z
  | feedback z => exact hv _ z
  | ready r => exact hv _ r
  | estop k => exact hv _ k

/-- An input that has been given a level reads it. -/
theorem inputActive_set_self (s : State) (i : InputId) (a : Bool) :
    inputActive (s.setInput i a).layout (s.setInput i a).inputs i = a := by
  have hl : inputLine (s.setInput i a).inputs i = Line.steady (wireLevel s.layout i a) := inputLine_set_self _ _ _
  have hw : (wireLevel s.layout i a == activeHigh s.layout i) = a := by
    unfold wireLevel
    cases a <;> simp
  unfold inputActive
  rw [hl]
  exact hw

/-- The change of an input that changes nothing on the track. -/
theorem changeInput_same {i : InputId} {a : Bool} {f : Env → Work → Work} {s : State}
    (h : inputSeen s.layout s.inputs i ≠ a → f (s.setInput i a).env (s.setInput i a).work = (s.setInput i a).work) :
    changeInput i a f s = s.setInput i a := by
  unfold changeInput
  split
  · rfl
  · next hs => exact run_same (h hs)

theorem changeInput_run {i : InputId} {a : Bool} {f g : Env → Work → Work} {s : State} (hs : inputSeen s.layout s.inputs i ≠ a)
    (h : f (s.setInput i a).env (s.setInput i a).work = g (s.setInput i a).env (s.setInput i a).work) :
    changeInput i a f s = (s.setInput i a).run g := by
  unfold changeInput
  rw [if_neg hs]
  exact run_congr h

/-! ### Hold feedback (R30 to R32) -/

theorem agrees_iff (h : Hold) (a : Bool) : agrees h a = true ↔ (h = .held ↔ a = true) := by
  cases h <;> cases a <;> simp [agrees]

section
variable {e : Env} {z : ZoneId} {w : Work} {b : Brake} (hb : w.brake z = some b)
include hb

theorem feedbackChange_waits {n : Nat} (h : b.supervision = .awaiting n) : feedbackChange e z w = w := by
  unfold feedbackChange
  simp only [hb, h]

theorem feedbackChange_confirmed (h : b.supervision = .confirmed) : feedbackChange e z w =
    if agrees b.hold (e.active (.feedback z)) then w else judgeDisagree e z b.hold w := by
  unfold feedbackChange
  simp only [hb, h]

theorem feedbackChange_disagree (h : b.supervision = .disagree) : feedbackChange e z w =
    if agrees b.hold (e.active (.feedback z)) then w.setSupervision z .confirmed else w := by
  unfold feedbackChange
  simp only [hb, h]

theorem confirmEnds_awaiting {n : Nat} (h : b.supervision = .awaiting n) : confirmEnds e z w =
    if agrees b.hold (e.active (.feedback z)) then w.setSupervision z .confirmed else judgeDisagree e z b.hold w := by
  unfold confirmEnds
  simp only [hb, h]

end

theorem feedbackChange_none {e : Env} {z : ZoneId} {w : Work} (hb : w.brake z = none) : feedbackChange e z w = w := by
  unfold feedbackChange
  rw [hb]

theorem confirmEnds_other {e : Env} {z : ZoneId} {w : Work} (h : ∀ b n, w.brake z = some b → b.supervision ≠ .awaiting n) :
    confirmEnds e z w = w := by
  unfold confirmEnds
  split
  · rfl
  · next b hb =>
    split
    · next n hn => exact absurd hn (h b n hb)
    · rfl
    · rfl

end Sys2Proof.Machine

namespace Sys2Proof.Proofs
open Sys2Proof.Machine

/-- Settles O43: by the supervision state and by whether the feedback agrees with the hold. -/
theorem holdFeedback : Obligations.HoldFeedback := by
  intro s z failed confirmed
  refine ⟨?_, ?_, fun h => ?_⟩
  · intro a u
    refine ⟨fun h => congrArg Host.Outcome.next (changeInput_same fun hs => feedbackChange_none (h.resolve_left hs)), ?_⟩
    intro b hs hb fits
    have hact : (s.setInput (.feedback z) a).env.active (.feedback z) = a := inputActive_set_self s (.feedback z) a
    have hfit : agrees b.hold ((s.setInput (.feedback z) a).env.active (.feedback z)) = true ↔ fits := by
      rw [hact]
      exact agrees_iff _ _
    have hb' : (s.setInput (.feedback z) a).work.brake z = some b := hb
    refine ⟨fun n hn => congrArg Host.Outcome.next (changeInput_same fun _ => feedbackChange_waits hb' hn),
      fun hc hf => congrArg Host.Outcome.next (changeInput_same fun _ => ?_),
      fun hc hf => congrArg Host.Outcome.next (changeInput_run hs ?_),
      fun hc hf => congrArg Host.Outcome.next (changeInput_run hs ?_),
      fun hc hf => congrArg Host.Outcome.next (changeInput_same fun _ => ?_)⟩
    · rw [feedbackChange_confirmed hb' hc, if_pos (hfit.2 hf)]
    · rw [feedbackChange_confirmed hb' hc, if_neg fun x => hf (hfit.1 x)]
      rfl
    · rw [feedbackChange_disagree hb' hc, if_pos (hfit.2 hf)]
    · rw [feedbackChange_disagree hb' hc, if_neg fun x => hf (hfit.1 x)]
  · intro b n hb hn fits
    have hfit : agrees b.hold (s.env.active (.feedback z)) = true ↔ fits := agrees_iff _ _
    have hb' : s.work.brake z = some b := hb
    refine ⟨fun hf => congrArg Host.Outcome.next (run_congr ?_), fun hf => congrArg Host.Outcome.next (run_congr ?_)⟩
    · rw [confirmEnds_awaiting hb' hn, if_pos (hfit.2 hf)]
    · rw [confirmEnds_awaiting hb' hn, if_neg fun x => hf (hfit.1 x)]
      rfl
  · exact congrArg Host.Outcome.next (run_same (confirmEnds_other h))

end Sys2Proof.Proofs

namespace Sys2Proof.Machine

/-! ### Timers (R21, R67, R68, R108, R114) -/

theorem settleEnds_other {e : Env} {z : ZoneId} {w : Work} (h : ∀ t n, w.zoneState z ≠ some (.clearing t n)) :
    settleEnds e z w = w := by
  unfold settleEnds
  split
  · next t n hz => exact absurd hz (h t n)
  · rfl

theorem dwellEnds_standing {e : Env} {t : TrainId} {w : Work} (hs : (w.trains[t]).state = .standing)
    (hd : (w.trains[t]).dwell ≠ none) : dwellEnds e t w = closeEval e (endDwell e t w) := by
  obtain ⟨n, hn⟩ := Option.ne_none_iff_exists'.1 hd
  unfold dwellEnds
  rw [hs, hn]

theorem dwellEnds_other {e : Env} {t : TrainId} {w : Work} (h : (w.trains[t]).state ≠ .standing ∨ (w.trains[t]).dwell = none) :
    dwellEnds e t w = w := by
  unfold dwellEnds
  split
  · next hs hd => rcases h with h | h
                  · exact absurd hs h
                  · rw [h] at hd; cases hd
  · rfl

theorem windowEnds_some {e : Env} {t : TrainId} {z : ZoneId} {w : Work} (hd : (w.trains[t]).departure ≠ none)
    (hf : (w.trains[t]).footprint = [z]) : windowEnds e t w = closeEvent e (stall e t z w) := by
  obtain ⟨n, hn⟩ := Option.ne_none_iff_exists'.1 hd
  unfold windowEnds
  rw [hn, rest_some.2 hf]

theorem windowEnds_none {e : Env} {t : TrainId} {w : Work} (hd : (w.trains[t]).departure = none) : windowEnds e t w = w := by
  unfold windowEnds
  rw [hd]

theorem travelEnds_some {e : Env} {t : TrainId} {z : ZoneId} {w : Work} (hd : (w.trains[t]).travel ≠ none)
    (hf : (w.trains[t]).footprint.getLast? = some z) :
    travelEnds e t w = closeEvent e (raiseAtZone e .overdue .overdue z (byteOf t.val) w) := by
  obtain ⟨n, hn⟩ := Option.ne_none_iff_exists'.1 hd
  unfold travelEnds Train.head
  rw [hn, hf]

theorem travelEnds_none {e : Env} {t : TrainId} {w : Work} (hd : (w.trains[t]).travel = none) : travelEnds e t w = w := by
  unfold travelEnds
  rw [hd]

/-! ### Samples (R26) -/

theorem occupiedState_iff (s : ZoneState) : occupiedState s = true ↔
    (∃ x, s = .occupied x) ∨ s = .unknown ∨ (∃ k, s = .fault k) ∨ ∃ x n, s = .clearing x n := by
  cases s <;> simp [occupiedState]

theorem sampleOf_iff (e : Env) (z : ZoneId) (r : Zone) : sampleOf e z r = true ↔ (∃ x, r.state = .occupied x) ∨ r.state = .unknown ∨
    (∃ k, r.state = .fault k) ∨ (∃ x n, r.state = .clearing x n) ∨
    (e.layout.stoppableZone z ∧ inputActive e.layout e.inputs (.stop z) = true) := by
  unfold sampleOf
  rw [Bool.or_eq_true, occupiedState_iff, stopActive_iff]
  simp only [or_assoc]

theorem sampleZones_zone (e : Env) (w : Work) (z : ZoneId) :
    (sampleZones e w).zones[z] = (w.zones[z]).map fun r => r.record (sampleOf e z r) := by
  unfold sampleZones
  exact vector_get_ofFn _ _

theorem zones_restored (a : Track) (zs : Vector (Option Zone) 32) : { { a with zones := zs } with zones := a.zones } = a := rfl

/-- A sample is put in place with no notice. -/
theorem sample_run (s : State) : ({ s with sampleDue := false }).run sampleZones =
    { s with sampleDue := false, track := (sampleZones s.env s.work).toTrack } :=
  put_quiet { s with sampleDue := false } _ rfl

end Sys2Proof.Machine

namespace Sys2Proof.Proofs
open Sys2Proof.Machine

/-- Settles O45: each timer by what it finds, the sample zone by zone. -/
theorem timersAndSamples : Obligations.TimersAndSamples := by
  refine ⟨fun s z => ⟨fun t n h => congrArg Host.Outcome.next (run_congr ?_), fun h =>
      congrArg Host.Outcome.next (run_same (settleEnds_other h))⟩, fun s t => ⟨fun hs hd =>
      congrArg Host.Outcome.next (run_congr (dwellEnds_standing hs hd)), fun h =>
      congrArg Host.Outcome.next (run_same (dwellEnds_other h)), fun z hd hf =>
      congrArg Host.Outcome.next (run_congr (windowEnds_some hd hf)), fun hd =>
      congrArg Host.Outcome.next (run_same (windowEnds_none hd)), fun z hd hf =>
      congrArg Host.Outcome.next (run_congr (travelEnds_some hd hf)), fun hd =>
      congrArg Host.Outcome.next (run_same (travelEnds_none hd))⟩, fun s k => ⟨fun c g h hb =>
      congrArg Host.Outcome.next (run_congr ?_), fun c g h hb => congrArg Host.Outcome.next (run_congr ?_), fun h =>
      congrArg Host.Outcome.next (run_same ?_)⟩, fun s => ⟨_, rfl, rfl, ?_, fun z r h => ?_, fun z h => ?_, ?_⟩⟩
  · have hz : s.work.zoneState z = some (.clearing t n) := h
    unfold settleEnds
    rw [hz]
  · have hc : waitingClaim s.work.toTrack k = some c := h
    unfold waitEnds
    simp only [hc, hb]
    unfold postExpired
    cases g.origin <;> rfl
  · have hc : waitingClaim s.work.toTrack k = some c := h
    unfold waitEnds
    simp only [hc, hb]
  · have hc : waitingClaim s.work.toTrack k = none := h
    unfold waitEnds
    rw [hc]
  · rw [sample_run]
  · refine ⟨sampleOf s.env z r, sampleOf_iff s.env z r, ?_⟩
    rw [sample_run]
    dsimp only
    rw [sampleZones_zone, show s.work.zones[z] = some r from h]
    rfl
  · rw [sample_run]
    dsimp only
    rw [sampleZones_zone, show s.work.zones[z] = none from h]
    rfl
  · rw [sample_run]
    exact zones_restored s.track _

end Sys2Proof.Proofs
end

section
/-! SUPPORT. Coming to rest (R63, R64), what a train does at its step (R113, R122), and the moves that arrive (R128). -/

namespace Sys2Proof.Machine

/-! ### At rest (R63, R64) -/

theorem hasClaimFrom_iff (w : Track) (t : TrainId) (z : ZoneId) :
    hasClaimFrom w t z = true ↔ ∃ c ∈ w.claims ++ w.line, c.startsAt t z = true := by
  unfold hasClaimFrom
  exact List.any_eq_true

/-- A train has come to rest in a zone. -/
def restsAt (e : Env) (w : Track) (t : TrainId) (z : ZoneId) : Prop :=
  (w.trains[t]).footprint = [z] ∧ e.active (.stop z) = true ∧ w.hold z = some .held ∧
    ((w.trains[t]).state = .running ∨ (w.trains[t]).state = .halted)

section
variable {e : Env} {t : TrainId} {z : ZoneId} {w : Work}

theorem restTrain_other (h : ¬ ∃ z, restsAt e w.toTrack t z) : restTrain e t w = w := by
  unfold restTrain
  split
  · rfl
  · next z hz =>
    split
    · next ha =>
      split
      · next hs hh => exact absurd ⟨z, rest_some.1 hz, ha, hh, .inl hs⟩ h
      · next hs hh => exact absurd ⟨z, rest_some.1 hz, ha, hh, .inr hs⟩ h
      · rfl
    · rfl

/-- The track with a train at rest, its claims from elsewhere withdrawn and its arrival told. -/
def rested (e : Env) (t : TrainId) (z : ZoneId) (w : Work) : Work :=
  let w1 := w.setTrain t { w.trains[t] with state := .standing, travel := none }
  postArrived e t z (withdrawAll (fun c => c.isLegOf t && !c.startsAt t z)
    (if (w.trains[t]).state = .halted then removeEntries t 0 w1 else w1))

theorem restTrain_rests (h : restsAt e w.toTrack t z) : restTrain e t w =
    if (w.trains[t]).state = .halted ∨ e.cursorAction (rested e t z w).trains[t] = some .pass then
      if hasClaimFrom (rested e t z w).toTrack t z = true then
        (rested e t z w).modifyTrain t fun r => { r with state := .claiming }
      else actOnStep e t (rested e t z w)
    else actOnStep e t (rested e t z w) := by
  obtain ⟨hf, ha, hh, hs⟩ := h
  have hr : restTrain e t w = match (w.trains[t]).state, w.hold z with
      | .running, some .held => restRunning e t z w
      | .halted, some .held => restHalted e t z w
      | _, _ => w := by
    unfold restTrain
    rw [rest_some.2 hf]
    exact if_pos ha
  rw [hr, hh]
  rcases hs with hs | hs
  · have hv : rested e t z w = postArrived e t z (withdrawAll (fun c => c.isLegOf t && !c.startsAt t z)
        (w.setTrain t { w.trains[t] with state := .standing, travel := none })) := by
      unfold rested
      simp only [hs]
      rfl
    have hrun : restRunning e t z w =
        if e.cursorAction (rested e t z w).trains[t] = some .pass ∧ hasClaimFrom (rested e t z w).toTrack t z = true then
          (rested e t z w).modifyTrain t fun r => { r with state := .claiming }
        else actOnStep e t (rested e t z w) := by
      rw [hv]
      rfl
    simp only [hs, hrun, reduceCtorEq, false_or, ite_and]
  · have hv : rested e t z w = postArrived e t z (withdrawAll (fun c => c.isLegOf t && !c.startsAt t z)
        (removeEntries t 0 (w.setTrain t { w.trains[t] with state := .standing, travel := none }))) := by
      unfold rested
      simp only [hs]
      rfl
    have hhalt : restHalted e t z w =
        if hasClaimFrom (rested e t z w).toTrack t z = true then
          (rested e t z w).modifyTrain t fun r => { r with state := .claiming }
        else actOnStep e t (rested e t z w) := by
      rw [hv]
      rfl
    simp only [hs, hhalt, true_or, if_true]

end

/-! ### At its step (R113, R114, R122) -/

theorem actOnStep_park {e : Env} {t : TrainId} {z : ZoneId} {w : Work} (h : e.cursorAction w.trains[t] = some .park)
    (hf : (w.trains[t]).footprint = [z]) : actOnStep e t w = w.post (supervisorAnd (e.owner z)) .atPark (.train t) (byteOf z.val) := by
  unfold actOnStep
  simp only [h, rest_some.2 hf]

theorem actOnStep_hold {e : Env} {t : TrainId} {w : Work} {d : Nat} (h : e.cursorAction w.trains[t] = some (.hold d)) :
    actOnStep e t w = startDwell e t d w := by
  unfold actOnStep
  simp only [h]

theorem actOnStep_pass {e : Env} {t : TrainId} {w : Work} (h : e.cursorAction w.trains[t] = some .pass) :
    actOnStep e t w = formAtRest e t .auto none w := by
  unfold actOnStep
  simp only [h]

theorem actOnStep_stays {e : Env} {t : TrainId} {w : Work}
    (h : e.cursorAction w.trains[t] = some .dispatch ∨ e.cursorAction w.trains[t] = none) : actOnStep e t w = w := by
  unfold actOnStep
  rcases h with h | h <;> simp only [h]

/-! ### Moves that arrive (R128, R129) -/

theorem atTarget_iff (e : Env) (w : Track) (n : SwitchId) :
    atTarget e w n = true ↔ ∃ q l v, w.switchState n = some (.moving q l v) ∧ e.positionRead n = some q := by
  unfold atTarget
  cases w.switchState n with
  | none => simp
  | some s => cases s <;> simp

theorem arrivals_none {e : Env} {w : Work} (k : Nat)
    (h : ∀ n q l v, w.switchState n = some (.moving q l v) → e.positionRead n ≠ some q) : arrivals e k w = w := by
  have hf : (switchIds.find? fun n => atTarget e w.toTrack n) = none := List.find?_eq_none.2 fun n _ hn => by
    obtain ⟨q, l, v, hs, hp⟩ := (atTarget_iff _ _ _).1 hn
    exact h n q l v hs hp
  cases k with
  | zero => rfl
  | succ k =>
    unfold arrivals
    rw [hf]

/-- The first of the switches that a property picks out. -/
theorem find_switch {P : SwitchId → Bool} {n : SwitchId} (hn : P n = true) (h : ∀ m, m < n → P m = false) :
    switchIds.find? P = some n := by
  unfold switchIds
  rw [List.find?_eq_some_iff_getElem]
  refine ⟨hn, n.val, by simp, by simp, fun j hj => ?_⟩
  simp only [List.getElem_finRange, Bool.not_eq_true']
  exact h _ hj

theorem arrivals_first {e : Env} {w : Work} {k : Nat} {n : SwitchId} {q : Position} {l : Nat} {v : Served}
    (hs : w.switchState n = some (.moving q l v)) (hp : e.positionRead n = some q)
    (hfirst : ∀ m, m < n → ∀ q l v, w.switchState m = some (.moving q l v) → e.positionRead m ≠ some q) :
    arrivals e (k + 1) w = arrivals e k (conclude e (arrive n w)) := by
  have hf : (switchIds.find? fun n => atTarget e w.toTrack n) = some n := by
    refine find_switch ((atTarget_iff _ _ _).2 ⟨q, l, v, hs, hp⟩) fun m hm => eq_false_of_ne_true fun hx => ?_
    obtain ⟨q', l', v', hs', hp'⟩ := (atTarget_iff _ _ _).1 hx
    exact hfirst m hm q' l' v' hs' hp'
  rw [arrivals, hf]

end Sys2Proof.Machine

namespace Sys2Proof.Proofs
open Sys2Proof.Machine

/-- Settles O42: at rest by the state the train was in, at its step by the step's action, the arrivals by the first switch at its
target. -/
theorem comingToRest : Obligations.ComingToRest := by
  refine ⟨?_, ?_, fun e w => ⟨rfl, rfl, rfl⟩, fun e w k => ⟨arrivals_none k, fun n q l v hs hp hfirst => arrivals_first hs hp hfirst⟩,
    ?_⟩
  · intro e t w r
    refine ⟨fun z hf ha hh hs => ?_, restTrain_other⟩
    intro w1 w2 v own
    have hv : rested e t z w = v := rfl
    have hr := restTrain_rests (e := e) (t := t) (z := z) (w := w) ⟨hf, ha, hh, hs⟩
    have hown : hasClaimFrom v.toTrack t z = true ↔ own := hasClaimFrom_iff _ _ _
    rw [hv] at hr
    refine ⟨fun ho hc => ?_, fun hno => ?_⟩
    · rw [hr, if_pos hc, if_pos (hown.2 ho)]
    · rw [hr]
      split
      · next hc =>
        rw [if_neg]
        exact fun ho => hno ⟨hown.1 ho, hc⟩
      · rfl
  · intro e t w r
    refine ⟨actOnStep_pass, fun d hd h0 => ?_, fun hd => ?_, actOnStep_stays, fun z hp hf => actOnStep_park hp hf⟩
    · rw [actOnStep_hold hd]
      unfold startDwell
      rw [if_neg h0]
      rfl
    · rw [actOnStep_hold hd]
      unfold startDwell
      rw [if_pos rfl]
      rfl
  · intro e t z w r rests
    have hr : (r.state = .running ∧ r.rest = some z ∧ e.cursorAction r = some .pass ∧ w.hold z = some .released ∧
        e.active (.stop z) = true) ↔ rests := by
      rw [rest_some]
    have heq : restReleased e t z w = if r.state = .running ∧ r.rest = some z ∧ e.cursorAction r = some .pass ∧
        w.hold z = some .released ∧ e.active (.stop z) = true then
      w.setTrain t { r with state := .cleared, travel := none, departure := some (((e.zone z).map windowMs).getD 0) } else w := rfl
    refine ⟨fun h => ?_, fun h => ?_⟩
    · rw [heq, if_pos (hr.2 h)]
      rfl
    · rw [heq, if_neg fun x => h (hr.1 x)]

end Sys2Proof.Proofs
end

section
/-! SUPPORT. One millisecond (R26, R37): what each timer makes of its record. -/

namespace Sys2Proof.Machine

theorem step_tick {s : State} (hp : s.pending = []) (hd : dueEvents s = []) : step s = .next s.tick := by
  unfold step stepIdle
  rw [hp]
  dsimp only
  rw [hd]

theorem tick_time (s : State) : s.tick.time = s.time + 1 := by unfold State.tick; rfl
theorem tick_routes (s : State) : s.tick.routes = s.routes := by unfold State.tick; rfl
theorem tick_pending (s : State) : s.tick.pending = s.pending := by unfold State.tick; rfl
theorem tick_choices (s : State) : s.tick.choices = s.choices := by unfold State.tick; rfl
theorem tick_ports (s : State) : s.tick.ports = s.ports.map Port.tick := by unfold State.tick; rfl
theorem tick_sampleDue (s : State) :
    s.tick.sampleDue = (s.layout.committed && decide ((s.time + 1) % Config.samplePeriod = 0)) := by unfold State.tick; rfl

/-- The wait of a WAITING claim counts down, no other claim changes. -/
theorem claim_tick_eq (c : Claim) : c.tick = match c.state with
    | .waiting => { c with wait := c.wait.map (· - 1) }
    | .setting _ => c := by
  unfold Claim.tick Claim.isWaiting tickTimer
  cases c.state <;> rfl

theorem zone_tick_eq (r : Zone) : r.tick = { r with
    state := (match r.state with
      | .clearing x n => .clearing x (n - 1)
      | x => x)
    brake := r.brake.map fun b => { b with supervision := match b.supervision with
      | .awaiting n => .awaiting (n - 1)
      | x => x } } := by
  have hs : r.state.tick = match r.state with
      | .clearing x n => .clearing x (n - 1)
      | x => x := by cases r.state <;> rfl
  have hb : ∀ b : Brake, b.supervision.tick = match b.supervision with
      | .awaiting n => .awaiting (n - 1)
      | x => x := fun b => by cases b.supervision <;> rfl
  unfold Zone.tick
  simp only [hs, hb]

theorem switch_tick_eq (r : Switch) : r.tick = { r with
    state := (match r.state with
      | .moving q k v => .moving q (k - 1) v
      | x => x) } := by
  have hs : (match r.state with
      | .moving q n x => .moving q (n - 1) x
      | .settled q => .settled q
      | .unknown => .unknown
      | .failed => .failed : SwitchState) = match r.state with
      | .moving q k v => .moving q (k - 1) v
      | x => x := by cases r.state <;> rfl
  unfold Switch.tick
  exact congrArg (fun x => { r with state := x }) hs

end Sys2Proof.Machine

namespace Sys2Proof.Proofs
open Sys2Proof.Machine

/-- Settles O3: the tick field by field. -/
theorem millisecondTick : Obligations.MillisecondTick := by
  intro s hp hd
  refine ⟨s.tick, step_tick hp hd, tick_layout s, tick_routes s, (tick_pending s).trans hp, tick_choices s, tick_time s, ?_, ?_⟩
  · rw [tick_sampleDue, Bool.and_eq_true, decide_eq_true_iff]
    rfl
  · rw [tick_track, tick_ports]
    refine ⟨rfl, rfl, rfl, rfl, fun x => vector_get_map _ _ x, fun z => ?_, fun z => ?_, ⟨?_, ?_⟩, fun n => ?_, fun p => vector_get_map _ _ p⟩
    · refine (vector_get_map _ _ z).trans ?_
      cases s.track.zones[z] with
      | none => rfl
      | some r => exact congrArg some (zone_tick_eq r)
    · refine (vector_get_map _ _ z).trans ?_
      cases s.track.trackers[z] with
      | none => rfl
      | some x => cases x <;> rfl
    · exact List.map_congr_left fun c _ => claim_tick_eq c
    · exact List.map_congr_left fun c _ => claim_tick_eq c
    · refine (vector_get_map _ _ n).trans ?_
      cases s.track.switches[n] with
      | none => rfl
      | some r => exact congrArg some (switch_tick_eq r)

end Sys2Proof.Proofs
end

section
/-! SUPPORT. SET_HOLD and MOVE_SWITCH: who may give them, their arguments, and what they come to (R133, R142). -/

namespace Sys2Proof.Machine

theorem mayHoldSection_iff (s : State) (p : PortId) :
    mayHoldSection s p = true ↔ p = 0 ∨ (s.ports[p]).role = .transfer := by
  unfold mayHoldSection State.role
  simp

theorem mayHoldSection_false {s : State} {p : PortId} (h : ¬(p = 0 ∨ (s.ports[p]).role = .transfer)) : mayHoldSection s p = false :=
  eq_false_of_ne_true fun x => h ((mayHoldSection_iff s p).1 x)

theorem heldSection_iff (w : Track) (p : PortId) (h : HeldSection) : w.heldSection p = some h ↔ w.sections[p] = .held h := by
  unfold Track.heldSection
  cases w.sections[p] <;> simp

theorem heldSection_none {w : Track} {p : PortId} (h : ∀ x, w.sections[p] ≠ .held x) : w.heldSection p = none :=
  Option.eq_none_iff_forall_ne_some.2 fun x hx => h x ((heldSection_iff w p x).1 hx)

/-! ### Arguments -/

theorem holdArg_none {r : Nat} (h : r ≠ 1 ∧ r ≠ 2) : holdArg r = none := by
  unfold holdArg
  split
  · exact absurd rfl h.1
  · exact absurd rfl h.2
  · rfl

theorem positionArg_none {r : Nat} (h : r ≠ 1 ∧ r ≠ 2) : positionArg r = none := by
  unfold positionArg
  split
  · exact absurd rfl h.1
  · exact absurd rfl h.2
  · rfl

theorem layoutSwitchArg_some {l : Layout} {k : SwitchId} {x : SwitchLayout} (h : l.switches[k] = some x) :
    layoutSwitchArg l k.val = some k := by
  unfold layoutSwitchArg
  rw [switchArg_val]
  dsimp only
  rw [h]
  rfl

theorem layoutSwitchArg_none {l : Layout} {n : Nat} (h : ∀ k : SwitchId, n = k.val → l.switches[k] = none) :
    layoutSwitchArg l n = none := by
  unfold layoutSwitchArg
  cases hk : switchArg n with
  | none => rfl
  | some k =>
    dsimp only
    rw [h k (switchArg_some hk)]
    rfl

/-! ### SET_HOLD (R142) -/

section
variable {s : State} {p : PortId} {z : ZoneId} {x : Hold}

theorem performSetHold_args {n r : Nat} (hm : p = 0 ∨ (s.ports[p]).role = .transfer)
    (hz : stopZoneArg s.layout n = some z) (hx : holdArg r = some x) : performSetHold p n r s = trySetHold p z x s := by
  unfold performSetHold
  rw [(mayHoldSection_iff s p).2 hm, if_neg (by decide), hz, hx]

theorem performSetHold_argument {n r : Nat} (hm : p = 0 ∨ (s.ports[p]).role = .transfer)
    (h : stopZoneArg s.layout n = none ∨ holdArg r = none) : performSetHold p n r s = refuse .argument s := by
  unfold performSetHold
  rw [(mayHoldSection_iff s p).2 hm, if_neg (by decide)]
  rcases h with h | h
  · rw [h]
  · rw [h]
    cases stopZoneArg s.layout n <;> rfl

theorem trySetHold_state (h : s.track.zoneState z ≠ some (.handed p) ∨ ∀ h, s.track.sections[p] ≠ .held h) :
    trySetHold p z x s = refuse .state s := by
  unfold trySetHold
  split
  · next q y hz hy =>
    rw [if_pos]
    rcases h with h | h
    · exact fun e => h (e ▸ hz)
    · exact absurd ((heldSection_iff _ _ _).1 hy) (h y)
  · rfl

theorem trySetHold_handed {h : HeldSection} (hz : s.track.zoneState z = some (.handed p)) (hs : s.track.sections[p] = .held h) :
    trySetHold p z x s = if s.track.mode = .estopped then refuse .mode s else doneWith (s.run (setHold p h z x)) := by
  unfold trySetHold
  rw [hz, (heldSection_iff _ _ _).2 hs]
  exact if_neg fun hp => hp rfl

end

/-! ### MOVE_SWITCH (R133) -/

section
variable {s : State} {p : PortId} {k : SwitchId} {q : Position}

theorem performMoveSwitch_args {n m : Nat} (hm : p = 0 ∨ (s.ports[p]).role = .transfer)
    (hk : layoutSwitchArg s.layout n = some k) (hq : positionArg m = some q) :
    performMoveSwitch p n m s = tryMoveSwitch p k q s := by
  unfold performMoveSwitch
  rw [(mayHoldSection_iff s p).2 hm, if_neg (by decide), hk, hq]

theorem performMoveSwitch_argument {n m : Nat} (hm : p = 0 ∨ (s.ports[p]).role = .transfer)
    (h : layoutSwitchArg s.layout n = none ∨ positionArg m = none) : performMoveSwitch p n m s = refuse .argument s := by
  unfold performMoveSwitch
  rw [(mayHoldSection_iff s p).2 hm, if_neg (by decide)]
  rcases h with h | h
  · rw [h]
  · rw [h]
    cases layoutSwitchArg s.layout n <;> rfl

theorem tryMoveSwitch_state (h : ∀ r, s.track.switches[k] = some r → r.sectionPort ≠ some p) :
    tryMoveSwitch p k q s = refuse .state s := by
  unfold tryMoveSwitch
  split
  · rfl
  · next r hr => exact if_pos (h r hr)

theorem tryMoveSwitch_held {r : Switch} (hr : s.track.switches[k] = some r) (hp : r.sectionPort = some p) :
    tryMoveSwitch p k q s =
      if s.track.mode = .estopped then refuse .mode s
      else if r.isMoving then refuse .busy s
      else if r.state = .settled q then doneWith s
      else (s.run (moveFor p k q), .accepted) := by
  unfold tryMoveSwitch
  rw [hr]
  exact if_neg fun h => h hp

/-- A section's move, with the limit the layout gives its switch. -/
theorem moveFor_eq {e : Env} {l : SwitchLayout} (h : e.layout.switches[k] = some l) (w : Work) : moveFor p k q e w =
    arrivals e 4 (applyRelease e (w.modifySwitch k fun x =>
      { x with
        state := .moving q (l.moveLimit * 100) (.port p), attempts := 0
        driveStraight := decide (q = .straight), driveDiverge := decide (q = .diverge) })) := by
  unfold moveFor startMove
  rw [h]
  rfl

end

end Sys2Proof.Machine

namespace Sys2Proof.Proofs
open Sys2Proof.Machine

/-- Settles O36: role, argument, state and mode in their order. -/
theorem setHoldAndMoveSwitch : Obligations.SetHoldAndMoveSwitch := by
  refine ⟨?_, ?_⟩
  · intro s p n r hi may
    refine ⟨fun hm => idle_refuses hi rfl rfl ?_, fun hm harg => idle_refuses hi rfl rfl ?_, ?_⟩
    · exact if_pos (mayHoldSection_false hm)
    · exact performSetHold_argument hm (harg.imp (stopZoneArg_none s.layout n) holdArg_none)
    · intro z x hm hn hz hr
      have hx : holdArg r = some x := by rw [hr]; cases x <;> rfl
      have hperform : performSetHold p n r s = trySetHold p z x s :=
        performSetHold_args hm (hn ▸ stopZoneArg_some s.layout z hz) hx
      refine ⟨fun hno => idle_refuses hi rfl rfl (hperform.trans (trySetHold_state hno)), fun h hh hs => ⟨fun he => ?_, fun he => ?_⟩⟩
      · exact idle_refuses hi rfl rfl (hperform.trans ((trySetHold_handed hh hs).trans (if_pos he)))
      · exact idle_answers hi rfl rfl (hperform.trans ((trySetHold_handed hh hs).trans (if_neg he)))
  · intro s p n m hi may
    refine ⟨fun hm => idle_refuses hi rfl rfl ?_, fun hm harg => idle_refuses hi rfl rfl ?_, ?_⟩
    · exact if_pos (mayHoldSection_false hm)
    · exact performMoveSwitch_argument hm (harg.imp layoutSwitchArg_none positionArg_none)
    · intro k l q hm hn hl hq
      have hx : positionArg m = some q := by rw [hq]; cases q <;> rfl
      have hperform : performMoveSwitch p n m s = tryMoveSwitch p k q s :=
        performMoveSwitch_args hm (hn ▸ layoutSwitchArg_some hl) hx
      refine ⟨fun hno => idle_refuses hi rfl rfl (hperform.trans (tryMoveSwitch_state hno)), fun r hr hp => ?_⟩
      have hheld := hperform.trans (tryMoveSwitch_held hr hp)
      refine ⟨fun he => ?_, fun he hmv => ?_, fun he hst => ?_, fun he hmv hst => ?_⟩
      · exact idle_refuses hi rfl rfl (hheld.trans (if_pos he))
      · exact idle_refuses hi rfl rfl (hheld.trans ((if_neg he).trans (if_pos hmv)))
      · have hmv : r.isMoving = false := by
          unfold Switch.isMoving
          rw [hst]
        exact idle_answers hi rfl rfl (hheld.trans ((if_neg he).trans ((if_neg (by simp [hmv])).trans (if_pos hst))))
      · have hrun : s.run (moveFor p k q) = s.run fun e w => arrivals e 4 (applyRelease e (w.modifySwitch k fun x =>
            { x with
              state := .moving q (l.moveLimit * 100) (.port p), attempts := 0
              driveStraight := decide (q = .straight), driveDiverge := decide (q = .diverge) })) :=
          run_congr (moveFor_eq (e := s.env) hl s.work)
        refine idle_answers hi rfl rfl (hheld.trans ((if_neg he).trans ((if_neg (by simp [hmv])).trans ((if_neg hst).trans ?_))))
        rw [hrun]

end Sys2Proof.Proofs
end

section
/-! SUPPORT. The warm start (R36, R39, R74, R165, R177): the levels it reads, and what it makes of the mode, the trains, the zones
and the ports. -/

namespace Sys2Proof.Machine

/-! ### What a warm start reads -/

/-- The inputs as a warm start reads them. -/
def State.toldEnv (s : State) : Env := { layout := s.layout, routes := s.routes, inputs := s.inputs.told }

theorem toldEnv_active (s : State) (i : InputId) : s.toldEnv.active i = s.env.active i := by
  have hl : inputLine s.toldEnv.inputs i = (inputLine s.inputs i).told := inputLine_told _ _
  unfold Env.active inputActive
  rw [hl]
  rfl

theorem toldEnv_position (s : State) (n : SwitchId) : s.toldEnv.positionRead n = s.env.positionRead n := by
  unfold Env.positionRead
  rw [toldEnv_active, toldEnv_active]

theorem toldEnv_stop (s : State) (z : ZoneId) : stopActive s.toldEnv z = stopActive s.env z := by
  unfold stopActive
  rw [toldEnv_active]
  rfl

theorem toldEnv_freshTracker (s : State) (z : ZoneId) : freshTracker s.toldEnv z = freshTracker s.env z := by
  unfold freshTracker
  rw [toldEnv_active]
  rfl

theorem toldEnv_freshSwitch (s : State) (n : SwitchId) : freshSwitch s.toldEnv n = freshSwitch s.env n := by
  unfold freshSwitch
  rw [toldEnv_position]

theorem warmStart_run (s : State) : (warmStart s).track = (warmTrack s.toldEnv s.work).toTrack := rfl

/-! ### Mode (R165) -/

theorem anyEstop_told (s : State) : anyEstop s.toldEnv = true ↔ ∃ k, inputActive s.layout s.inputs (.estop k) = true := by
  rw [anyEstop_iff]
  simp only [toldEnv_active]
  rfl

theorem anyEstop_told_false {s : State} (h : ∀ k, inputActive s.layout s.inputs (.estop k) = false) : anyEstop s.toldEnv = false :=
  eq_false_of_ne_true fun x => by
    obtain ⟨k, hk⟩ := (anyEstop_told s).1 x
    rw [h k] at hk
    cases hk

theorem warmMode_estop {e : Env} (m : Mode) (h : anyEstop e = true) : warmMode e m = .estopped ∧ warmClear e m = none := by
  simp [warmMode, warmClear, h]

theorem warmMode_stopped {e : Env} (h : anyEstop e = false) : warmMode e .estopped = .estopped ∧ warmClear e .estopped = some 500 := by
  simp [warmMode, warmClear, h, Config.estopClearTime]

theorem warmMode_other {e : Env} {m : Mode} (h : anyEstop e = false) (hm : m ≠ .estopped) :
    warmMode e m = (if e.layout.committed then .halted else .unconfigured) ∧ warmClear e m = none := by
  simp [warmMode, warmClear, h, hm]

/-! ### Trains and zones (R36, R74) -/

theorem warmTrack_train (e : Env) (w : Work) (t : TrainId) : (warmTrack e w).trains[t] = warmTrain w.trains[t] :=
  vector_get_map _ _ t

theorem warmTrack_zone (e : Env) (w : Work) (z : ZoneId) : (warmTrack e w).zones[z] = (w.zones[z]).map (warmZone e z) :=
  vector_get_ofFn _ z

theorem all_take_iff (n : Nat) (h : List Bool) : (n < h.length ∧ (h.take (n + 1)).all (fun b => !b) = true) ↔
    n < h.length ∧ ∀ k, k ≤ n → h[k]? = some false := by
  refine and_congr_right fun hn => ?_
  rw [List.all_eq_true]
  constructor
  · intro hall k hk
    have hlt : k < h.length := by omega
    have hm : h[k] ∈ h.take (n + 1) := List.mem_take_iff_getElem.2 ⟨k, by omega, rfl⟩
    rw [List.getElem?_eq_getElem hlt]
    simpa using hall _ hm
  · intro hall b hb
    obtain ⟨k, hk, rfl⟩ := List.mem_take_iff_getElem.1 hb
    have := hall k (by omega)
    rw [List.getElem?_eq_getElem (by omega)] at this
    simpa using this

/-- A zone comes back CLEAR: no FAULT and no HANDED before, samples enough and none of them occupied, its stop sensor not
active (R36). -/
theorem trusted_iff (e : Env) (z : ZoneId) (was : ZoneState) (h : List Bool) : trusted e z was h = true ↔
    (∀ k, was ≠ .fault k) ∧ (∀ p, was ≠ .handed p) ∧ e.layout.lookBack < h.length ∧
      (∀ n, n ≤ e.layout.lookBack → h[n]? = some false) ∧ stopActive e z = false := by
  have hl := all_take_iff e.layout.lookBack h
  unfold trusted
  rw [Bool.and_eq_true, Bool.and_eq_true, Bool.and_eq_true, Bool.not_eq_true', decide_eq_true_iff, and_assoc (b := _ < _), hl]
  cases was <;> simp [and_assoc]

theorem warmZone_eq (e : Env) (z : ZoneId) (r : Zone) : warmZone e z r =
    { state := if trusted e z r.state ((sampleOf e z r :: r.history).take 8) then .clear else .unknown
      history := (sampleOf e z r :: r.history).take 8
      brake := r.brake.map fun _ => { hold := .held, supervision := .awaiting (e.layout.holdConfirm * 50) } } := rfl

/-! ### Ports (R177) -/

/-- A notice of class MODE named to every port is queued where the mask admits it. -/
theorem deliverTo_mode (l : Layout) (t : BitVec 32) (p : PortId) (n : Note) (r : Port) (h : noticeClass n.name = .mode) :
    deliverTo l t p [{ note := n, named := portIds }] r =
      if r.mask.getLsbD 5 then r.queueNotice { note := n, time := t } else r := by
  have hr : reaches l p r { note := n, named := portIds } = r.mask.getLsbD 5 := by
    unfold reaches
    rw [h, decide_eq_true (mem_portIds p), Bool.true_or, Bool.true_and]
    rfl
  show (if reaches l p r _ then r.queueNotice { note := n, time := t } else r) = _
  rw [hr]

/-- A port after a warm start, with the MODE notice. -/
theorem warmStart_port (s : State) (p : PortId) : (warmStart s).ports[p] =
    let n : Note := { name := .mode, subject := .mode (warmStart s).track.mode
                      detail1 := byteOf (modeCode s.track.mode * 32 + 7), detail2 := 0xFF }
    if (s.ports[p]).mask.getLsbD 5 then (s.ports[p]).warm.queueNotice { note := n, time := 0 } else (s.ports[p]).warm := by
  have h := run_port { s with ports := s.ports.map Port.warm, time := 0, sampleDue := false, inputs := s.inputs.told } warmTrack p
  refine h.trans ?_
  rw [show ({ s with ports := s.ports.map Port.warm, time := 0, sampleDue := false, inputs := s.inputs.told } : State).ports[p] =
    (s.ports[p]).warm from vector_get_map _ _ p]
  exact deliverTo_mode _ _ _ _ _ rfl

end Sys2Proof.Machine

namespace Sys2Proof.Proofs
open Sys2Proof.Machine

/-- Settles O6: the mode by the ESTOP lines, then record by record; RESTART by its role. -/
theorem warmStartAndRestart : Obligations.WarmStartAndRestart := by
  refine ⟨fun s => ⟨Machine.warmStart s, rfl, rfl, rfl, fun i => inputLine_told s.inputs i, rfl, rfl, rfl, rfl, fun h => ?_, fun h hm => ?_,
    fun h hm hc => ?_, fun h hm hc => ?_, fun x hx => ?_, fun x hx => ?_, rfl, rfl, rfl, fun p => ?_, fun z hz => ?_,
    fun z r hr => ?_, fun z => ?_, fun n => ?_, ?_⟩, fun s p hi => ⟨fun hp => ?_, fun hp => ⟨_, rfl, ?_⟩⟩⟩
  · exact warmMode_estop (e := s.toldEnv) s.track.mode ((anyEstop_told s).2 h)
  · have hw := warmMode_stopped (e := s.toldEnv) (anyEstop_told_false h)
    rw [← hm] at hw
    exact ⟨hw.1.trans hm, hw.2⟩
  · have hw := warmMode_other (e := s.toldEnv) (anyEstop_told_false h) hm
    exact ⟨hw.1.trans (if_pos hc), hw.2⟩
  · have hw := warmMode_other (e := s.toldEnv) (anyEstop_told_false h) hm
    exact ⟨hw.1.trans (if_neg (by simp [State.toldEnv, hc])), hw.2⟩
  · exact (warmTrack_train s.toldEnv s.work x).trans (if_pos hx)
  · exact (warmTrack_train s.toldEnv s.work x).trans (if_neg hx)
  · exact vector_get_replicate _ p
  · refine (warmTrack_zone s.toldEnv s.work z).trans ?_
    rw [show s.work.zones[z] = none from hz]
    rfl
  · refine ⟨warmZone s.toldEnv z r, (warmTrack_zone s.toldEnv s.work z).trans ?_, ?_⟩
    · rw [show s.work.zones[z] = some r from hr]
      rfl
    · have ht := trusted_iff s.toldEnv z r.state ((sampleOf s.toldEnv z r :: r.history).take 8)
      rw [toldEnv_stop] at ht
      have hs : sampleOf s.toldEnv z r = (occupiedState r.state || stopActive s.env z) := by
        unfold sampleOf
        rw [toldEnv_stop]
      rw [warmZone_eq]
      refine ⟨by rw [hs], rfl, ?_, ?_⟩
      · dsimp only
        split
        · exact .inl rfl
        · exact .inr rfl
      · refine Iff.trans ?_ ht
        dsimp only
        split
        · next h => exact ⟨fun _ => h, fun _ => rfl⟩
        · next h => exact ⟨fun hc => (by cases hc), fun ht => absurd ht h⟩
  · exact (vector_get_ofFn _ z).trans
      (congrArg (fun y => (s.track.trackers[z]).map fun _ => y) (toldEnv_freshTracker s z))
  · exact (vector_get_ofFn _ n).trans
      (congrArg (fun y => (s.track.switches[n]).map fun _ => y) (toldEnv_freshSwitch s n))
  · intro p r q
    have hr : r = _ := warmStart_port s p
    rw [hr]
    dsimp only
    split
    · exact ⟨rfl, rfl, rfl, rfl, rfl, rfl, rfl, rfl, rfl, rfl, rfl, rfl, rfl, rfl⟩
    · exact ⟨rfl, rfl, rfl, rfl, rfl, rfl, rfl, rfl, rfl, rfl, rfl, rfl, rfl, rfl⟩
  · exact idle_refuses hi rfl rfl (if_pos hp)
  · exact idle_answers hi rfl rfl (if_neg fun h => h hp)

end Sys2Proof.Proofs
end

section
/-! SUPPORT. The ride halt (R64, R103, R151), the emergency stop (R156 to R158): claims that return to WAITING, trains that are halted, holds. -/

namespace Sys2Proof.Machine

/-! ### Claims that return to WAITING (R103) -/

theorem isWaiting_iff (c : Claim) : c.isWaiting = true ↔ c.state = .waiting := by
  unfold Claim.isWaiting
  cases c.state <;> simp

theorem isWaiting_false {c : Claim} (h : c.state ≠ .waiting) : c.isWaiting = false :=
  eq_false_of_ne_true fun x => h ((isWaiting_iff c).1 x)

/-- Every claim in the list and in the line is WAITING. -/
def allWaiting (w : Track) : Prop := ∀ c ∈ w.claims ++ w.line, c.state = .waiting

/-- The list is within its size, the line is WAITING, and the list's claims that are not are among those given. -/
structure SettingAmong (cs : List Claim) (w : Track) : Prop where
  bounded : w.claims.length ≤ 12
  line : ∀ c ∈ w.line, c.state = .waiting
  list : ∀ c ∈ w.claims, c.state ≠ .waiting → c ∈ cs

theorem SettingAmong.all {w : Track} (h : SettingAmong [] w) : allWaiting w := fun c hc => by
  rcases List.mem_append.1 hc with hc | hc
  · by_contra hn
    exact absurd (h.list c hc hn) List.not_mem_nil
  · exact h.line c hc

/-- Claims that leave keep the others in their places: what was in the list stays there. -/
theorem SettingAmong.filtered {cs : List Claim} {a w : Track} (P : Claim → Bool) (h : SettingAmong cs w)
    (hc : a.claims = ((w.claims ++ w.line).filter P).take 12) (hl : a.line = ((w.claims ++ w.line).filter P).drop 12) :
    SettingAmong cs a where
  bounded := by
    rw [hc]
    exact List.length_take_le 12 _
  line c hm := by
    have hlen : (w.claims.filter P).length ≤ 12 := (List.length_filter_le _ _).trans h.bounded
    rw [hl, List.filter_append, List.drop_append, List.drop_eq_nil_of_le hlen, List.nil_append] at hm
    exact h.line c (List.mem_of_mem_filter (List.mem_of_mem_drop hm))
  list c hm hn := by
    rw [hc] at hm
    rcases List.mem_append.1 (List.mem_of_mem_filter (List.mem_of_mem_take hm)) with hm | hm
    · exact h.list c hm hn
    · exact absurd (h.line c hm) hn

theorem releaseEntryOf_among {cs : List Claim} {w : Work} (c : Claim) (h : SettingAmong cs w.toTrack) :
    SettingAmong cs (releaseEntryOf c w).toTrack := by
  unfold releaseEntryOf
  split
  · obtain ⟨hc, hl⟩ := removeEntries_claims _ _ w
    exact h.filtered _ hc hl
  · exact h

/-- A claim returned to WAITING is no longer among those that are not. -/
theorem returnToWaiting_among {cs : List Claim} {w : Work} (c : Claim) (h : SettingAmong (c :: cs) w.toTrack) :
    SettingAmong cs (returnToWaiting c w).toTrack := by
  have hr := releaseEntryOf_among c h
  have hback : ∀ d : Claim, (if d.same c then { d with state := .waiting } else d : Claim).state ≠ .waiting →
      d.state ≠ .waiting ∧ d ≠ c ∧ (if d.same c then { d with state := .waiting } else d : Claim) = d := by
    intro d hd
    by_cases hs : d.same c = true
    · rw [if_pos hs] at hd
      exact absurd rfl hd
    · rw [if_neg hs] at hd ⊢
      exact ⟨hd, fun e => hs (e ▸ same_self d), rfl⟩
  constructor
  · exact (List.length_map _).trans_le hr.bounded
  · intro d hd
    obtain ⟨x, hx, rfl⟩ := List.mem_map.1 (show d ∈ (releaseEntryOf c w).line.map _ from hd)
    by_contra hn
    exact (hback x hn).1 (hr.line x hx)
  · intro d hd hn
    obtain ⟨x, hx, rfl⟩ := List.mem_map.1 (show d ∈ (releaseEntryOf c w).claims.map _ from hd)
    obtain ⟨hxn, hxc, hxe⟩ := hback x hn
    rw [hxe]
    exact (List.mem_cons.1 (hr.list x hx hxn)).resolve_left hxc

/-- Every claim of the list returns to WAITING. -/
theorem returnAllToWaiting_waiting {w : Work} (hb : w.claims.length ≤ 12) (hl : ∀ c ∈ w.line, c.state = .waiting) :
    allWaiting (returnAllToWaiting w).toTrack := by
  have hfold : ∀ (cs : List Claim) (v : Work), SettingAmong cs v.toTrack → SettingAmong [] (cs.foldl
      (fun w c => if w.claims.any fun d => d.same c && !d.isWaiting then returnToWaiting c w else w) v).toTrack := by
    intro cs
    induction cs with
    | nil => exact fun v h => h
    | cons c cs ih =>
      intro v h
      rw [List.foldl_cons]
      refine ih _ ?_
      split
      · exact returnToWaiting_among c h
      · next hno =>
        refine ⟨h.bounded, h.line, fun d hd hn => (List.mem_cons.1 (h.list d hd hn)).resolve_left ?_⟩
        rintro rfl
        exact hno (List.any_eq_true.2 ⟨d, hd, by rw [same_self, isWaiting_false hn]; rfl⟩)
  refine (hfold _ w ⟨hb, hl, fun c hc hn => ?_⟩).all
  exact List.mem_filter.2 ⟨hc, by rw [isWaiting_false hn]; rfl⟩

/-- Claims all WAITING stay so when some of them leave. -/
theorem allWaiting.sub {a b : Track} (h : allWaiting a) (hs : ∀ c ∈ b.claims ++ b.line, c ∈ a.claims ++ a.line) : allWaiting b :=
  fun c hc => h c (hs c hc)

theorem dropClaims_sub (gone : Claim → Bool) (w : Work) (c : Claim)
    (h : c ∈ (dropClaims gone w).claims ++ (dropClaims gone w).line) : c ∈ w.claims ++ w.line := by
  rw [dropClaims_all] at h
  exact List.mem_of_mem_filter h

theorem removeEntries_sub (t : TrainId) (k : Nat) (w : Work) (c : Claim)
    (h : c ∈ (removeEntries t k w).claims ++ (removeEntries t k w).line) : c ∈ w.claims ++ w.line := by
  rw [removeEntries_all] at h
  exact List.mem_of_mem_filter h

/-! ### Trains at rest that are halted (R64, R151) -/

/-- What a ride halt leaves of a train at rest: its entries given back, its claims from elsewhere withdrawn. -/
def unclaimed (t : TrainId) (z : ZoneId) (w : Work) : Work :=
  dropClaims (fun c => c.isLegOf t && !c.startsAt t z) (removeEntries t 0 w)

theorem unclaimed_self (t : TrainId) (z : ZoneId) (w : Work) :
    (unclaimed t z w).trains[t] = { w.trains[t] with authority := [] } := by
  unfold unclaimed
  rw [dropClaims_trains, removeEntries_self]
  rfl

theorem unclaimed_other {t u : TrainId} (z : ZoneId) (w : Work) (h : u ≠ t) : (unclaimed t z w).trains[u] = w.trains[u] := by
  unfold unclaimed
  rw [dropClaims_trains, removeEntries_other _ _ _ h]

theorem unclaimed_sub (t : TrainId) (z : ZoneId) (w : Work) (c : Claim)
    (h : c ∈ (unclaimed t z w).claims ++ (unclaimed t z w).line) : c ∈ w.claims ++ w.line :=
  removeEntries_sub t 0 w c (dropClaims_sub _ _ c h)

section
variable {t : TrainId} {z : ZoneId} {w : Work}

theorem haltResting_stands (hf : (w.trains[t]).footprint = [z]) (ha : (w.trains[t]).authority ≠ [])
    (hs : (w.trains[t]).state = .standing ∨ (w.trains[t]).state = .claiming) : haltResting t w = unclaimed t z w := by
  obtain ⟨g, gs, hg⟩ := List.exists_cons_of_ne_nil ha
  unfold haltResting
  rcases hs with hs | hs <;> simp only [hs, rest_some.2 hf, hg] <;> rfl

theorem haltResting_clears {g : LegEntry} {gs : List LegEntry} (hf : (w.trains[t]).footprint = [z])
    (hs : (w.trains[t]).state = .cleared) (hg : (w.trains[t]).authority = g :: gs) :
    haltResting t w = postAbort t (some g.origin) .halt ((unclaimed t z w).setTrain t { w.trains[t] with
      state := .standing, authority := [], departure := none
      ride := (w.trains[t]).ride.map fun d => { d with stalled := false } }) := by
  have hv : ((unclaimed t z w).modifyTrain t fun r =>
        { (r.mapRide fun d => { d with stalled := false }) with state := .standing, departure := none }) =
      (unclaimed t z w).setTrain t { w.trains[t] with
        state := .standing, authority := [], departure := none
        ride := (w.trains[t]).ride.map fun d => { d with stalled := false } } := by
    unfold Work.modifyTrain
    rw [unclaimed_self]
    rfl
  unfold haltResting
  simp only [hs, rest_some.2 hf, hg]
  rw [← hv]
  rfl

theorem haltResting_other (h : (∀ z, ¬((w.trains[t]).footprint = [z] ∧ (w.trains[t]).authority ≠ [])) ∨
    ((w.trains[t]).state ≠ .standing ∧ (w.trains[t]).state ≠ .claiming ∧ (w.trains[t]).state ≠ .cleared)) :
    haltResting t w = w := by
  unfold haltResting
  dsimp only
  split
  · next z hg hr hs =>
    rcases h with h | ⟨-, -, h⟩
    · exact absurd ⟨rest_some.1 hr, by rw [hg]; exact List.cons_ne_nil _ _⟩ (h z)
    · exact absurd hs h
  · next z hg hr hs =>
    rcases h with h | ⟨h, -, -⟩
    · exact absurd ⟨rest_some.1 hr, by rw [hg]; exact List.cons_ne_nil _ _⟩ (h z)
    · exact absurd hs h
  · next z hg hr hs =>
    rcases h with h | ⟨-, h, -⟩
    · exact absurd ⟨rest_some.1 hr, by rw [hg]; exact List.cons_ne_nil _ _⟩ (h z)
    · exact absurd hs h
  · rfl

end

/-- A train that the ride halt leaves at rest: no authority, CLEARED turned to STANDING. -/
structure Rested (a b : Train) : Prop where
  footprint : b.footprint = a.footprint
  state : b.state = a.state ∨ (a.state = .cleared ∧ b.state = .standing)
  authority : ∀ z, b.footprint = [z] → b.state = .standing ∨ b.state = .claiming ∨ b.state = .cleared → b.authority = []

theorem Rested.trans {a b c : Train} (h : Rested a b) (k : Rested b c) : Rested a c where
  footprint := k.footprint.trans h.footprint
  state := by
    rcases k.state with hk | ⟨hk, hc⟩
    · rw [hk]
      exact h.state
    · rcases h.state with hh | ⟨-, hb⟩
      · exact .inr ⟨hh ▸ hk, hc⟩
      · rw [hb] at hk; cases hk
  authority := k.authority

theorem postAbort_trains (t : TrainId) (o : Option Origin) (c : AbortCause) (w : Work) : (postAbort t o c w).trains = w.trains := by
  unfold postAbort
  split <;> rfl

/-- What the ride halt does with one train, by cases. -/
theorem haltResting_cases (t : TrainId) (w : Work) : haltResting t w = w ∨ (∃ z, haltResting t w = unclaimed t z w) ∨
    ∃ z o r, haltResting t w = postAbort t o .halt ((unclaimed t z w).setTrain t r) := by
  by_cases h : (∃ z, (w.trains[t]).footprint = [z] ∧ (w.trains[t]).authority ≠ []) ∧
      ((w.trains[t]).state = .standing ∨ (w.trains[t]).state = .claiming ∨ (w.trains[t]).state = .cleared)
  · obtain ⟨⟨z, hf, ha⟩, hs⟩ := h
    rw [← or_assoc] at hs
    rcases hs with hs | hs
    · exact .inr (.inl ⟨z, haltResting_stands hf ha hs⟩)
    · obtain ⟨g, gs, hg⟩ := List.exists_cons_of_ne_nil ha
      exact .inr (.inr ⟨z, _, _, haltResting_clears hf hs hg⟩)
  · refine .inl (haltResting_other ?_)
    rw [not_and_or, not_or, not_or] at h
    exact h.imp_left not_exists.1

theorem haltResting_train (t : TrainId) (w : Work) : Rested w.trains[t] (haltResting t w).trains[t] := by
  by_cases h : (∃ z, (w.trains[t]).footprint = [z] ∧ (w.trains[t]).authority ≠ []) ∧
      ((w.trains[t]).state = .standing ∨ (w.trains[t]).state = .claiming ∨ (w.trains[t]).state = .cleared)
  · obtain ⟨⟨z, hf, ha⟩, hs⟩ := h
    rw [← or_assoc] at hs
    rcases hs with hs | hs
    · rw [haltResting_stands hf ha hs, unclaimed_self]
      exact ⟨rfl, .inl rfl, fun _ _ _ => rfl⟩
    · obtain ⟨g, gs, hg⟩ := List.exists_cons_of_ne_nil ha
      rw [haltResting_clears hf hs hg, postAbort_trains, setTrain_self]
      exact ⟨rfl, .inr ⟨hs, rfl⟩, fun _ _ _ => rfl⟩
  · rw [haltResting_other]
    · refine ⟨rfl, .inl rfl, fun z hf hs => ?_⟩
      by_contra ha
      exact h ⟨⟨z, hf, ha⟩, hs⟩
    · rw [not_and_or, not_or, not_or] at h
      exact h.imp_left not_exists.1

theorem haltResting_train_other {t u : TrainId} (w : Work) (h : u ≠ t) : (haltResting t w).trains[u] = w.trains[u] := by
  rcases haltResting_cases t w with hc | ⟨z, hc⟩ | ⟨z, o, r, hc⟩
  · rw [hc]
  · rw [hc, unclaimed_other z w h]
  · rw [hc, postAbort_trains, setTrain_other _ _ h, unclaimed_other z w h]

theorem haltResting_sub (t : TrainId) (w : Work) (c : Claim)
    (h : c ∈ (haltResting t w).claims ++ (haltResting t w).line) : c ∈ w.claims ++ w.line := by
  rcases haltResting_cases t w with hc | ⟨z, hc⟩ | ⟨z, o, r, hc⟩
  · rwa [hc] at h
  · rw [hc] at h
    exact unclaimed_sub t z w c h
  · have hp : ∀ v : Work, (postAbort t o .halt v).claims = v.claims ∧ (postAbort t o .halt v).line = v.line := fun v => by
      unfold postAbort
      split <;> exact ⟨rfl, rfl⟩
    rw [hc, (hp _).1, (hp _).2] at h
    exact unclaimed_sub t z w c h

theorem haltAll_train (u : TrainId) (ts : List TrainId) (w : Work) :
    (u ∈ ts → Rested w.trains[u] (ts.foldl (fun w t => haltResting t w) w).trains[u]) ∧
    (u ∉ ts → (ts.foldl (fun w t => haltResting t w) w).trains[u] = w.trains[u]) := by
  induction ts generalizing w with
  | nil => exact ⟨fun h => absurd h List.not_mem_nil, fun _ => rfl⟩
  | cons t ts ih =>
    obtain ⟨hin, hout⟩ := ih (haltResting t w)
    rw [List.foldl_cons]
    by_cases hu : u = t
    · subst hu
      refine ⟨fun _ => ?_, fun h => absurd List.mem_cons_self h⟩
      by_cases hm : u ∈ ts
      · exact (haltResting_train u w).trans (hin hm)
      · rw [hout hm]
        exact haltResting_train u w
    · rw [haltResting_train_other w hu] at hin hout
      exact ⟨fun h => hin ((List.mem_cons.1 h).resolve_left hu), fun h => hout fun hm => h (List.mem_cons_of_mem _ hm)⟩

theorem haltAll_waiting (ts : List TrainId) (w : Work) (h : allWaiting w.toTrack) :
    allWaiting (ts.foldl (fun w t => haltResting t w) w).toTrack := by
  induction ts generalizing w with
  | nil => exact h
  | cons t ts ih =>
    rw [List.foldl_cons]
    exact ih _ (h.sub (haltResting_sub t w))

/-! ### Trains that a returned claim touches -/

/-- A train whose leg entries may have been given back. -/
structure Shortened (a b : Train) : Prop where
  state : b.state = a.state
  footprint : b.footprint = a.footprint

theorem releaseEntryOf_train (c : Claim) (w : Work) (t : TrainId) : Shortened w.trains[t] (releaseEntryOf c w).trains[t] := by
  unfold releaseEntryOf
  split
  · next x g hs hb =>
    by_cases h : t = g.train
    · subst h
      rw [removeEntries_self]
      exact ⟨rfl, rfl⟩
    · rw [removeEntries_other _ _ _ h]
      exact ⟨rfl, rfl⟩
  · exact ⟨rfl, rfl⟩

theorem returnAllToWaiting_train (w : Work) (t : TrainId) : Shortened w.trains[t] (returnAllToWaiting w).trains[t] := by
  have hfold : ∀ (cs : List Claim) (v : Work), Shortened v.trains[t] (cs.foldl
      (fun w c => if w.claims.any fun d => d.same c && !d.isWaiting then returnToWaiting c w else w) v).trains[t] := by
    intro cs
    induction cs with
    | nil => exact fun v => ⟨rfl, rfl⟩
    | cons c cs ih =>
      intro v
      rw [List.foldl_cons]
      split
      · obtain ⟨hs, hf⟩ := ih (returnToWaiting c v)
        obtain ⟨hs', hf'⟩ := releaseEntryOf_train c v t
        exact ⟨hs.trans hs', hf.trans hf'⟩
      · exact ih v
  exact hfold _ w

/-! ### The ride halt (R151) -/

theorem haltRunning_eq (w : Work) : haltRunning w = { w with trains := w.trains.map fun r =>
    if r.state = .running then { r with state := .halted } else r } := by
  have hf : (fun r : Train => match r.state with
      | .running => { r with state := .halted }
      | _ => r) = fun r : Train => if r.state = .running then { r with state := .halted } else r := by
    funext r
    cases h : r.state <;> simp
  exact congrArg (fun f : Train → Train => ({ w with trains := w.trains.map f } : Work)) hf

theorem haltRunning_train (w : Work) (t : TrainId) : (haltRunning w).trains[t] =
    if (w.trains[t]).state = .running then { w.trains[t] with state := .halted } else w.trains[t] := by
  rw [haltRunning_eq]
  exact vector_get_map _ _ t

section
variable (e : Env) (m : Mode) (w : Work)

/-- The track of a ride halt before the release rule. -/
def halting : Work := haltRunning (trainIds.foldl (fun w t => haltResting t w) (returnAllToWaiting { w with mode := m }))

theorem rideHalt_eq : rideHalt e m w = applyRelease e (halting m w) := rfl

theorem rideHalt_mode : (rideHalt e m w).mode = m := moves_steady.mode (moves_steady.rideHalt e m w)

/-- With no train that may pass, the release rule changes no train. -/
theorem rideHalt_train (hm : m ≠ .operating) (t : TrainId) : (rideHalt e m w).trains[t] = (halting m w).trains[t] := by
  have hmode := rideHalt_mode e m w
  rw [rideHalt_eq, applyRelease_mode] at hmode
  rw [rideHalt_eq]
  refine applyRelease_stays e fun z h => ?_
  obtain ⟨-, -, hp, -⟩ := h
  exact hm (hmode.symm.trans hp)

/-- A train before and after the ride halt: at rest without authority, or halted where it stood. -/
theorem halting_train (t : TrainId) : ∃ a b, Shortened w.trains[t] a ∧ Rested a b ∧
    (halting m w).trains[t] = if b.state = .running then { b with state := .halted } else b := by
  refine ⟨_, _, returnAllToWaiting_train { w with mode := m } t, (haltAll_train t trainIds _).1 (mem_trainIds t), ?_⟩
  exact haltRunning_train _ t

theorem rideHalt_waiting (hb : w.claims.length ≤ 12) (hl : ∀ c ∈ w.line, c.state = .waiting) :
    allWaiting (rideHalt e m w).toTrack := by
  have h := haltAll_waiting trainIds _ (returnAllToWaiting_waiting (w := { w with mode := m }) hb hl)
  unfold allWaiting at h ⊢
  rw [rideHalt_eq, applyRelease_claims, applyRelease_line]
  unfold halting
  rw [haltRunning_claims, haltRunning_line]
  exact h

end

/-! ### Holds outside OPERATING (R28) -/

/-- Outside OPERATING a hold is RELEASED for a section's master alone. -/
theorem released_master {w : Track} {z : ZoneId} (hf : w.holdsFollow) (hm : w.mode ≠ .operating) (h : w.hold z = some .released) :
    w.masterReleases z := by
  rcases ((holdsFollow_iff w).1 hf z _ h).1 rfl with ⟨ho, -⟩ | hp
  · exact absurd ho hm
  · exact hp

theorem estopped_held {w : Track} (hf : w.holdsFollow) (hm : w.mode = .estopped) (z : ZoneId) : w.hold z ≠ some .released := by
  intro h
  obtain ⟨hn, -⟩ := released_master hf (by rw [hm]; decide) h
  exact hn hm

theorem closeEvent_mode (e : Env) (w : Work) : (closeEvent e w).mode = w.mode := moves_steady.mode (moves_steady.closeEvent e w)

theorem enterEstopped_uncommitted {e : Env} (h : e.layout.committed = false) (a b : Bool) (w : Work) :
    enterEstopped e a b w = postMode w.mode (.estop a b) { w with mode := .estopped } := by
  unfold enterEstopped
  rw [h]
  rfl

/-- The track with every move abandoned after the ride halt. -/
def abandoned (e : Env) (w : Work) : Work := abandonAll e (rideHalt e .estopped w)

theorem abandoned_mode (e : Env) (w : Work) : (abandoned e w).mode = .estopped := by
  have h := moves_steady.mode (moves_steady.abandonAll e (rideHalt e .estopped w))
  rw [rideHalt_mode] at h
  unfold abandoned
  exact h

theorem enterEstopped_committed {e : Env} (h : e.layout.committed = true) (a b : Bool) (w : Work) : enterEstopped e a b w =
    postMode w.mode (.estop a b) (applyRelease e { abandoned e w with sections := (abandoned e w).sections.map holdRequests }) := by
  unfold enterEstopped abandoned
  rw [if_pos h]

theorem withSections_mode (v : Work) (x : Vector Section 4) : ({ v with sections := x } : Work).mode = v.mode := rfl

theorem enterEstopped_mode (e : Env) (a b : Bool) (w : Work) : (enterEstopped e a b w).mode = .estopped := by
  cases h : e.layout.committed with
  | false =>
    have hp := postMode_mode w.mode (.estop a b) { w with mode := .estopped }
    rw [enterEstopped_uncommitted h]
    exact hp
  | true =>
    rw [enterEstopped_committed h, postMode_mode, applyRelease_mode, withSections_mode]
    exact abandoned_mode e w

/-! ### The emergency stop (R156 to R158) -/

theorem abandonAll_eq (e : Env) (w : Work) : abandonAll e w = switchIds.foldl (fun v n =>
    if (v.switches[n]).any Switch.isMoving then
      (v.modifySwitch n fun x => { x with
        state := (match e.positionRead n with
          | some q => .settled q
          | none => .unknown)
        attempts := 0, driveStraight := false, driveDiverge := false }).post [0] .switchAbandoned (.switch n)
        (match e.positionRead n with
          | some .straight => 1
          | some .diverge => 2
          | none => 4)
    else v) w := by
  have hm : ∀ (v : Work) n, switchMoving v.toTrack n = (v.switches[n]).any Switch.isMoving := fun v n => by
    unfold switchMoving
    cases v.switches[n] <;> rfl
  have hc : ∀ q : Option Position, rereadCode q = match q with
      | some .straight => 1
      | some .diverge => 2
      | none => 4 := fun q => by
    cases q with
    | none => rfl
    | some q => cases q <;> rfl
  unfold abandonAll
  refine congrArg (fun f => switchIds.foldl f w) (funext fun v => funext fun n => ?_)
  rw [hm, hc]
  rfl

theorem estopDetail (a b : Bool) : causeDetail (.estop a b) = if a then (if b then 3 else 1) else (if b then 2 else 0xFF) := by
  cases a <;> cases b <;> rfl

theorem holdRequests_eq (r : Section) : holdRequests r = match r with
    | .held h => .held { h with requests := h.requests.map fun q => (q.1, Hold.held) }
    | x => x := by cases r <;> rfl

/-- The MODE notice of the entry into ESTOPPED, and the hold requests dropped (R142, R157). -/
theorem estopTold (e : Env) (left : Mode) (a b : Bool) {v : Work} (hm : v.mode = .estopped) :
    postMode left (.estop a b) (applyRelease e { v with sections := v.sections.map holdRequests }) =
      (applyRelease e { v with sections := v.sections.map fun x => match x with
        | .held h => .held { h with requests := h.requests.map fun q => (q.1, Hold.held) }
        | x => x }).post [0, 1, 2, 3] .mode (.mode .estopped) (byteOf (modeCode left * 32 + 5))
        (if a then (if b then 3 else 1) else (if b then 2 else 0xFF)) := by
  have hsec : v.sections.map holdRequests = v.sections.map fun x => match x with
      | .held h => .held { h with requests := h.requests.map fun q => (q.1, Hold.held) }
      | x => x := congrArg (fun f => v.sections.map f) (funext holdRequests_eq)
  unfold postMode
  rw [applyRelease_mode, show ({ v with sections := v.sections.map holdRequests } : Work).mode = .estopped from hm, estopDetail, hsec]
  rfl

end Sys2Proof.Machine

namespace Sys2Proof.Proofs
open Sys2Proof.Machine

/-- The ESTOP line's change, by what it shows and by the mode. -/
theorem estopLine_outcomes (s : State) (k : EstopId) (a : Bool) : let u := s.setInput (.estop k) a
    (inputSeen s.layout s.inputs (.estop k) = a → exec (.estopLineChange k a) s = .next u) ∧
    (inputSeen s.layout s.inputs (.estop k) = false → a = true → s.track.mode = .estopped →
      exec (.estopLineChange k a) s = .next { u with track := { s.track with estopClear := none } }) ∧
    (inputSeen s.layout s.inputs (.estop k) = false → a = true → s.track.mode ≠ .estopped → ∃ t,
      exec (.estopLineChange k a) s = .next t ∧ t.track.mode = .estopped ∧
      (∀ z : ZoneId, t.track.hold z ≠ some .released) ∧
      t = u.run fun e w => closeEvent e (enterEstopped e (inputSeen u.layout u.inputs (.estop 0))
        (inputSeen u.layout u.inputs (.estop 1)) w)) ∧
    (inputSeen s.layout s.inputs (.estop k) = true → a = false → s.track.mode = .estopped →
      inputSeen s.layout s.inputs (.estop (1 - k)) = false →
      exec (.estopLineChange k a) s = .next { u with track := { s.track with estopClear := some 500 } }) ∧
    (inputSeen s.layout s.inputs (.estop k) = true → a = false →
      s.track.mode ≠ .estopped ∨ inputSeen s.layout s.inputs (.estop (1 - k)) = true →
      exec (.estopLineChange k a) s = .next u) := by
  intro u
  have hseen : ∀ j, u.env.estop j = if InputId.estop k = .estop j then a else inputSeen s.layout s.inputs (.estop j) :=
    fun j => inputSeen_set s (.estop k) a j
  have hboth : a = false → ((u.env.estop 0 = false ∧ u.env.estop 1 = false) ↔ inputSeen s.layout s.inputs (.estop (1 - k)) = false) := by
    intro ha
    rw [hseen, hseen, ha]
    match k with
    | 0 => simp
    | 1 => simp
  refine ⟨fun h => congrArg Host.Outcome.next (changeInput_same fun hs => absurd h hs), fun hs ha hm => ?_, fun hs ha hm => ?_,
    fun hs ha hm ho => ?_, fun hs ha h => ?_⟩
  · have hne : inputSeen s.layout s.inputs (.estop k) ≠ a := by rw [hs, ha]; decide
    refine congrArg Host.Outcome.next ((changeInput_run (g := fun _ w => { w with estopClear := none }) hne ?_).trans ?_)
    · unfold estopChange
      rw [if_pos ha, if_pos (show (s.setInput (.estop k) a).work.mode = .estopped from hm)]
    · exact put_quiet u _ rfl
  · have hne : inputSeen s.layout s.inputs (.estop k) ≠ a := by rw [hs, ha]; decide
    refine ⟨_, congrArg Host.Outcome.next (changeInput_run (g := fun e w => closeEvent e (enterEstopped e
      (inputSeen u.layout u.inputs (.estop 0)) (inputSeen u.layout u.inputs (.estop 1)) w)) hne ?_), ?_, fun z => ?_, rfl⟩
    · unfold estopChange
      rw [if_pos ha, if_neg (show ¬ (s.setInput (.estop k) a).work.mode = .estopped from hm)]
      rfl
    · rw [State.run_track]
      exact (closeEvent_mode _ _).trans (enterEstopped_mode _ _ _ _)
    · rw [State.run_track]
      exact estopped_held (closeEvent_follows _ _) ((closeEvent_mode _ _).trans (enterEstopped_mode _ _ _ _)) z
  · have hne : inputSeen s.layout s.inputs (.estop k) ≠ a := by rw [hs, ha]; decide
    refine congrArg Host.Outcome.next ((changeInput_run (g := fun _ w => { w with estopClear := some 500 }) hne ?_).trans ?_)
    · unfold estopChange
      rw [if_neg (by simp [ha]), if_pos ⟨hm, (hboth ha).2 ho⟩]
      rfl
    · exact put_quiet u _ rfl
  · refine congrArg Host.Outcome.next (changeInput_same fun _ => ?_)
    unfold estopChange
    rw [if_neg (by simp [ha]), if_neg]
    rintro ⟨hm, hlow⟩
    rcases h with h | h
    · exact h hm
    · have hlow' := (hboth ha).1 hlow
      rw [h] at hlow'
      cases hlow'

/-- The end of the ESTOP clear time, by the mode. -/
theorem estopClear_outcomes (s : State) :
    (s.track.mode = .estopped → s.track.estopClear ≠ none → ∃ t, exec .estopClearExpiry s = .next t ∧
      t.track.mode = (if s.layout.committed then .halted else .unconfigured) ∧ t.track.estopClear = none ∧
      t = s.run fun e w => closeEvent e (postMode w.mode .estopClear
        { w with mode := if e.layout.committed then .halted else .unconfigured, estopClear := none })) ∧
    (s.track.mode ≠ .estopped ∨ s.track.estopClear = none → exec .estopClearExpiry s = .next s) := by
  refine ⟨fun hm hc => ?_, fun h => congrArg Host.Outcome.next (run_same ?_)⟩
  · obtain ⟨n, hn⟩ := Option.ne_none_iff_exists'.1 hc
    have hrun : clearEnds s.env s.work = closeEvent s.env (postMode s.work.mode .estopClear
        { s.work with mode := if s.env.layout.committed then .halted else .unconfigured, estopClear := none }) := by
      unfold clearEnds
      rw [show s.work.estopClear = some n from hn]
      simp only [show s.work.mode = .estopped from hm]
    refine ⟨_, congrArg Host.Outcome.next (run_congr (g := fun e w => closeEvent e (postMode w.mode .estopClear
        { w with mode := if e.layout.committed then .halted else .unconfigured, estopClear := none })) hrun), ?_, ?_, rfl⟩
    · rw [State.run_track]
      exact closeEvent_mode _ _
    · rw [State.run_track]
      exact (moves_steady.closeEvent _ _).clear
  · unfold clearEnds
    split
    · next m hm hn =>
      rcases h with h | h
      · exact absurd hm h
      · exact absurd (hn.symm.trans h) (by simp)
    · rfl

/-- Settles O26: the ESTOP lines and the clear time by their outcomes, the ride halt train by train, the entry into ESTOPPED by
whether the layout is committed. -/
theorem emergencyStopAndRideHalt : Obligations.EmergencyStopAndRideHalt := by
  refine ⟨⟨estopLine_outcomes, estopClear_outcomes⟩, ?_, ?_, ?_, ?_⟩
  · intro e m w hm
    have hno : m ≠ .operating := by rcases hm with rfl | rfl <;> decide
    refine ⟨rideHalt_mode e m w, fun t => ?_, fun t ht => ?_, fun z hz => ?_, fun t z hf hs => ?_, rideHalt_waiting e m w⟩
    · obtain ⟨a, b, -, -, hb⟩ := halting_train m w t
      rw [rideHalt_train e m w hno, hb]
      split
      · exact fun h => by cases h
      · next h => exact h
    · obtain ⟨a, b, ha, hab, hb⟩ := halting_train m w t
      have hbs : b.state = .running := by
        rcases hab.state with h | ⟨h, -⟩
        · rw [h, ha.state, ht]
        · rw [ha.state, ht] at h; cases h
      rw [rideHalt_train e m w hno, hb, if_pos hbs]
      exact ⟨rfl, hab.footprint.trans ha.footprint⟩
    · have hmaster := released_master (applyRelease_follows e (halting m w))
        (by rw [← rideHalt_eq, rideHalt_mode]; exact hno) hz
      refine ⟨?_, hmaster⟩
      obtain ⟨hne, -⟩ := hmaster
      rw [← rideHalt_eq, rideHalt_mode] at hne
      exact hm.resolve_right hne
    · obtain ⟨a, b, -, hab, hb⟩ := halting_train m w t
      rw [rideHalt_train e m w hno, hb] at hf hs ⊢
      split at hf
      · next hr =>
        rw [if_pos hr] at hs
        simp at hs
      · next hr =>
        rw [if_neg hr] at hs ⊢
        exact hab.authority z hf hs
  · intro e m w w1 w2
    exact congrArg (applyRelease e) (haltRunning_eq w2)
  · intro t w r less rests
    refine ⟨fun z hr hs => haltResting_stands hr.1 hr.2 hs, fun z g gs hr hs hg => ?_, haltResting_other⟩
    intro v
    rw [haltResting_clears hr.1 hs hg]
    cases g.origin <;> rfl
  · intro e a b w told
    refine ⟨fun hc => ?_, fun hc => ?_⟩
    · rw [enterEstopped_uncommitted hc]
      unfold postMode
      rw [estopDetail]
      rfl
    · intro v
      have hv : v = abandoned e w := (abandonAll_eq e _).symm
      have hmode : v.mode = .estopped := by
        rw [hv]
        exact abandoned_mode e w
      have henter : enterEstopped e a b w =
          postMode w.mode (.estop a b) (applyRelease e { v with sections := v.sections.map holdRequests }) := by
        rw [hv]
        exact enterEstopped_committed hc a b w
      clear hv
      clear_value v
      rw [henter]
      exact estopTold e w.mode a b hmode

end Sys2Proof.Proofs
end

section
/-! SUPPORT. What the read commands answer (R34, R73, R83, R111, R135) and how each record's fields lie in its reply (R179). -/

namespace Sys2Proof.Machine

/-! ### Bytes -/

theorem countedBytes_map {α : Type} (f : α → List Byte) (xs : List α) :
    countedBytes (xs.map f) = [byteOf xs.length] ++ xs.flatMap f := by
  unfold countedBytes
  rw [List.length_map, List.flatMap_def]
  rfl

theorem countedBytes_singles {α : Type} (f : α → Byte) (xs : List α) :
    countedBytes (xs.map fun x => [f x]) = [byteOf xs.length] ++ xs.map f := by
  rw [countedBytes_map, ← List.map_eq_flatMap]

/-! ### Records (Tables 2-1, 8-1) -/

theorem zoneState_bytes (x : ZoneState) : zoneStateData x = match x with
    | .clear => [1, 0xFF, 0xFF, 0xFF, 0xFF]
    | .reserved t => [2, byteOf t.val, 0xFF, 0xFF, 0xFF]
    | .occupied t => [3, byteOf t.val, 0xFF, 0xFF, 0xFF]
    | .clearing t n => [4, byteOf t.val] ++ bytes3 n ++ [0xFF, 0xFF]
    | .unknown => [5, 0xFF, 0xFF, 0xFF, 0xFF]
    | .fault k => [6, 0xFF, 0xFF, byteOf ([ZoneFault.intrusion, .sensorMissed, .sensorStuck, .overdue, .holdFailed].idxOf k + 1), 0xFF]
    | .handed p => [7, 0xFF, 0xFF, 0xFF, byteOf p.val] := by
  cases x with
  | fault k => cases k <;> rfl
  | _ => rfl

theorem brake_bytes (b : Option Brake) : brakeData b = match b with
    | none => [0xFF, 0xFF, 0xFF]
    | some b => (match b.hold with
      | .held => [1]
      | .released => [2]) ++ match b.supervision with
      | .confirmed => [1, 0xFF]
      | .awaiting n => 2 :: bytes3 n
      | .disagree => [3, 0xFF] := by
  cases b with
  | none => rfl
  | some b =>
    obtain ⟨hold, supervision⟩ := b
    cases hold with
    | held => cases supervision <;> rfl
    | released => cases supervision <;> rfl

theorem zoneLevels_eq {e : Env} {z : ZoneId} {l : ZoneLayout} (h : e.layout.zones[z] = some l) : zoneLevels e z =
    [flagByte (e.active (.entry z))] ++
      if l.kind = .run then [0xFF, 0xFF] else [flagByte (e.active (.stop z)), flagByte (e.active (.feedback z))] := by
  have hs : isStoppable e z = true ↔ l.kind ≠ .run := by
    unfold isStoppable Env.zone
    rw [h]
    exact stoppable_iff l.kind
  unfold zoneLevels
  by_cases hk : l.kind = .run
  · rw [if_pos hk, if_neg fun x => hs.1 x hk]
    rfl
  · rw [if_neg hk, if_pos (hs.2 hk)]
    rfl

theorem switchRecord_bytes (r : Switch) : switchRecordData r = (match r.state with
      | .settled q => [positionCode q, 0xFF, byteOf r.attempts, 0xFF, 0xFF]
      | .moving q n v => [3, positionCode q, byteOf r.attempts] ++ bytes3 n ++ (match v with
        | .claim k => [1, k]
        | .port p => [2, byteOf p.val]
        | .none => [0, 0xFF])
      | .unknown => [4, 0xFF, byteOf r.attempts, 0xFF, 0xFF]
      | .failed => [5, 0xFF, byteOf r.attempts, 0xFF, 0xFF]) ++
    [optByte (r.sectionPort.map (·.val)), flagByte r.driveStraight, flagByte r.driveDiverge] := by
  unfold switchRecordData
  cases r.state with
  | moving q n v => cases v <;> rfl
  | _ => rfl

theorem isLocked_eq (e : Env) (w : Track) (n : SwitchId) :
    flagByte (isLocked e w n) = if lockingTrains e w n = [] then 0 else 1 := by
  unfold isLocked
  cases lockingTrains e w n <;> rfl

/-- The trains that lock a switch, in ascending number. -/
theorem lockingTrains_sorted (e : Env) (w : Track) (n : SwitchId) : (lockingTrains e w n).Pairwise (fun t u => t < u) := by
  unfold lockingTrains
  split
  · exact .nil
  · exact (List.pairwise_lt_finRange 8).filter _

theorem mem_lockingTrains (e : Env) (w : Track) (n : SwitchId) (t : TrainId) :
    t ∈ lockingTrains e w n ↔ e.layout.lockedBy n (w.trains[t]) := by
  unfold lockingTrains Layout.lockedBy
  cases e.layout.switches[n] with
  | none => simp
  | some x => simp only [List.mem_filter, mem_trainIds, true_and, locks_iff, mem_passages, Option.some.injEq, exists_eq_left']

theorem trainState_byte (x : TrainState) : trainStateCode x =
    byteOf ([TrainState.absent, .stored, .standing, .claiming, .cleared, .running, .halted, .manual, .lost].idxOf x + 1) := by
  cases x <;> rfl

theorem zoneKind_byte (k : ZoneKind) :
    zoneKindCode k = byteOf ([ZoneKind.station, .brake, .lift, .launch, .storage, .run].idxOf k + 1) := by
  cases k <;> rfl

/-! ### Trains, claims and routes (Tables 4-1, 5-4, 6-1, 13-8) -/

theorem frame_bytes (f : Frame) : frameBytes f = [byteOf f.start.val, byteOf f.endStep.val] ++ (match f.kind with
      | .counted n => [1, byteOf (n / 2 ^ 8), byteOf n]
      | .forever => [2, 0xFF, 0xFF]) ++ [byteOf (f.lap / 2 ^ 8), byteOf f.lap, flagByte f.broken] := by
  unfold frameBytes
  cases f.kind <;> rfl

theorem legEntry_bytes (g : LegEntry) : legEntryBytes g = [byteOf g.zones.length] ++ g.zones.map (fun z => byteOf z.val) ++
    [flagByte g.started, byteOf g.reqs.length] ++ g.reqs.flatMap requirementBytes ++ [byteOf g.target.val] ++
    originBytes g.origin := by
  unfold legEntryBytes
  rw [countedBytes_singles (fun z : ZoneId => byteOf z.val), countedBytes_map]
  simp

theorem decision_bytes (d : Decision) : decisionBytes d = [byteOf d.target.val, byteOf d.ops.length] ++ d.ops.flatMap fun o => match o with
    | .lapUp => [1]
    | .countDown => [2]
    | .pop => [3]
    | .push f => 4 :: frameBytes f := by
  have hop : frameOpBytes = fun o => match o with
      | .lapUp => [1]
      | .countDown => [2]
      | .pop => [3]
      | .push f => 4 :: frameBytes f := by
    funext o
    cases o <;> rfl
  unfold decisionBytes
  rw [countedBytes_map, ← hop]
  rfl

theorem barred_byte (l : Layout) (c : Claim) (a : Bool) : flagByte (a && barred l c) =
    if a = true ∧ c.state = .waiting ∧ l.bypassLimit ≠ 0 ∧ l.bypassLimit ≤ c.bypass then 1 else 0 := by
  have h : (a && barred l c) = true ↔ a = true ∧ c.state = .waiting ∧ l.bypassLimit ≠ 0 ∧ l.bypassLimit ≤ c.bypass := by
    unfold barred
    simp only [Bool.and_eq_true, isWaiting_iff, decide_eq_true_iff, and_assoc]
  unfold flagByte
  simp only [h]

theorem claim_parts (l : Layout) (c : Claim) (a : Bool) : claimParts l c a = [.field [c.seq]] ++
    (match c.body with
      | .leg g => [.field [1], .field [byteOf g.train.val], .field (originBytes g.origin),
          .list (g.zones.map fun z => [byteOf z.val]), .field [byteOf g.start.val],
          .list (g.reqs.map requirementBytes), .field [0xFF], .field (decisionBytes g.decision)]
      | .sectionOf g => [.field [2], .field [byteOf g.port.val], .field [0xFF],
          .list (g.zones.map fun z => [byteOf z.val]), .field [0xFF], .field [0xFF],
          .list (g.switches.map fun n => [byteOf n.val]), .field [0xFF]]) ++
    [.field [if c.state = .waiting then 1 else 2], .field [if a then 1 else 2],
     (match c.state with
       | .waiting => .field [0xFF]
       | .setting ns => .list (ns.map fun n => [byteOf n.val])),
     .field (optField bytes3 c.wait), .field [byteOf c.bypass],
     .field [if a = true ∧ c.state = .waiting ∧ l.bypassLimit ≠ 0 ∧ l.bypassLimit ≤ c.bypass then 1 else 0]] := by
  have hw : (if c.isWaiting then 1 else 2 : Byte) = if c.state = .waiting then 1 else 2 := by simp only [isWaiting_iff]
  have hb : claimBodyParts c.body = match c.body with
      | .leg g => [.field [1], .field [byteOf g.train.val], .field (originBytes g.origin),
          .list (g.zones.map fun z => [byteOf z.val]), .field [byteOf g.start.val],
          .list (g.reqs.map requirementBytes), .field [0xFF], .field (decisionBytes g.decision)]
      | .sectionOf g => [.field [2], .field [byteOf g.port.val], .field [0xFF],
          .list (g.zones.map fun z => [byteOf z.val]), .field [0xFF], .field [0xFF],
          .list (g.switches.map fun n => [byteOf n.val]), .field [0xFF]] := by cases c.body <;> rfl
  have hs : claimAwaited c.state = match c.state with
      | .waiting => .field [0xFF]
      | .setting ns => .list (ns.map fun n => [byteOf n.val]) := by cases c.state <;> rfl
  unfold claimParts
  rw [hw, hb, hs, barred_byte]

theorem step_bytes (r : RouteId) (k : StepId) (x : Option RouteStep) : stepData r k x = match x with
    | none => [0, byteOf r.val, byteOf k.val, 0xFF, 0, 0xFF, 0, 0xFF, 0xFF]
    | some y => [1, byteOf r.val, byteOf k.val, byteOf y.zone.val] ++ (match y.action with
        | .pass => [1, 0xFF]
        | .hold d => [2, byteOf d]
        | .dispatch => [3, 0xFF]
        | .park => [4, 0xFF]) ++ match y.opener with
        | none => [0, 0xFF, 0xFF]
        | some o => (match o.kind with
          | .counted n => [1, byteOf n]
          | .forever => [2, 0xFF]) ++ [byteOf o.endStep.val] := by
  cases x with
  | none => rfl
  | some y =>
    have ha : actionBytes y.action = match y.action with
        | .pass => [1, 0xFF]
        | .hold d => [2, byteOf d]
        | .dispatch => [3, 0xFF]
        | .park => [4, 0xFF] := by cases y.action <;> rfl
    have ho : openerBytes y.opener = match y.opener with
        | none => [0, 0xFF, 0xFF]
        | some o => (match o.kind with
          | .counted n => [1, byteOf n]
          | .forever => [2, 0xFF]) ++ [byteOf o.endStep.val] := by
      cases y.opener with
      | none => rfl
      | some o =>
        unfold openerBytes
        dsimp only
        cases o.kind <;> rfl
    unfold stepData
    dsimp only
    rw [ha, ho]

/-! ### The read commands -/

theorem performReadZone_none {s : State} {n : Nat} (hc : s.layout.committed = true) (h : s.zoneRecord n = none) :
    performReadZone n s = refuse .argument s := by
  unfold performReadZone
  rw [if_neg (by simp [hc]), h]

theorem performReadSwitch_none {s : State} {n : Nat} (hc : s.layout.committed = true) (h : s.switchRecord n = none) :
    performReadSwitch n s = refuse .argument s := by
  unfold performReadSwitch
  rw [if_neg (by simp [hc]), h]

theorem zoneRecord_missing {s : State} {z : ZoneId} (h : s.layout.zones[z] = none ∨ s.track.zones[z] = none) :
    s.zoneRecord z.val = none := by
  unfold State.zoneRecord
  rw [zoneArg_val]
  dsimp only
  rcases h with h | h
  · rw [h]
  · rw [h]
    cases s.layout.zones[z] <;> rfl

theorem switchRecord_missing {s : State} {k : SwitchId} (h : s.layout.switches[k] = none ∨ s.track.switches[k] = none) :
    s.switchRecord k.val = none := by
  unfold State.switchRecord
  rw [switchArg_val]
  dsimp only
  rcases h with h | h
  · rw [h]
  · rw [h]
    cases s.layout.switches[k] <;> rfl

theorem performReadZone_some {s : State} {z : ZoneId} {l : ZoneLayout} {r : Zone} (hc : s.layout.committed = true)
    (hl : s.layout.zones[z] = some l) (hr : s.track.zones[z] = some r) :
    performReadZone z.val s = (s, .done (zoneData s.env z l r)) := by
  have hrec : s.zoneRecord z.val = some (z, l, r) := by
    unfold State.zoneRecord
    rw [zoneArg_val]
    dsimp only
    rw [hl, hr]
  unfold performReadZone
  rw [if_neg (by simp [hc]), hrec]

theorem performReadSwitch_some {s : State} {k : SwitchId} {l : SwitchLayout} {r : Switch} (hc : s.layout.committed = true)
    (hl : s.layout.switches[k] = some l) (hr : s.track.switches[k] = some r) :
    performReadSwitch k.val s = (s, .done (switchData s.env s.track k l r)) := by
  have hrec : s.switchRecord k.val = some (k, l, r) := by
    unfold State.switchRecord
    rw [switchArg_val]
    dsimp only
    rw [hl, hr]
  unfold performReadSwitch
  rw [if_neg (by simp [hc]), hrec]

theorem performReadStep_argument {s : State} {n m : Nat} (h : 8 ≤ n ∨ 16 ≤ m) : performReadStep n m s = refuse .argument s := by
  unfold performReadStep
  rcases h with h | h
  · rw [routeArg_none h]
  · rw [stepArg_none h]
    cases routeArg n <;> rfl

end Sys2Proof.Machine

namespace Sys2Proof.Proofs
open Sys2Proof.Machine

/-- READ_ZONE and READ_SWITCH answered. -/
theorem readZoneSwitch_answers (s : State) (p : PortId) (n : Nat) (hi : s.idlePort p) :
    (s.layout.committed = false → refusesWith (.readZone p n) p 0x03 .mode s ∧ refusesWith (.readSwitch p n) p 0x05 .mode s) ∧
    (s.layout.committed = true → 32 ≤ n → refusesWith (.readZone p n) p 0x03 .argument s) ∧
    (∀ z : ZoneId, s.layout.committed = true → n = z.val → s.layout.zones[z] = none ∨ s.track.zones[z] = none →
      refusesWith (.readZone p n) p 0x03 .argument s) ∧
    (∀ (z : ZoneId) (l : ZoneLayout) (r : Zone), s.layout.committed = true → n = z.val → s.layout.zones[z] = some l →
      s.track.zones[z] = some r → exec (.readZone p n) s = .next (replied p 0x03 (.done (zoneData s.env z l r)) s)) ∧
    (s.layout.committed = true → 4 ≤ n → refusesWith (.readSwitch p n) p 0x05 .argument s) ∧
    (∀ k : SwitchId, s.layout.committed = true → n = k.val → s.layout.switches[k] = none ∨ s.track.switches[k] = none →
      refusesWith (.readSwitch p n) p 0x05 .argument s) ∧
    (∀ (k : SwitchId) (l : SwitchLayout) (r : Switch), s.layout.committed = true → n = k.val →
      s.layout.switches[k] = some l → s.track.switches[k] = some r →
      exec (.readSwitch p n) s = .next (replied p 0x05 (.done (switchData s.env s.track k l r)) s)) := by
  refine ⟨fun hc => ⟨idle_refuses hi rfl rfl (if_pos hc), idle_refuses hi rfl rfl (if_pos hc)⟩,
    fun hc hn => idle_refuses hi rfl rfl (performReadZone_none hc ?_),
    fun z hc hn h => idle_refuses hi rfl rfl (performReadZone_none hc (hn ▸ zoneRecord_missing h)),
    fun z l r hc hn hl hr => idle_answers hi rfl rfl (hn ▸ performReadZone_some hc hl hr),
    fun hc hn => idle_refuses hi rfl rfl (performReadSwitch_none hc ?_),
    fun k hc hn h => idle_refuses hi rfl rfl (performReadSwitch_none hc (hn ▸ switchRecord_missing h)),
    fun k l r hc hn hl hr => idle_answers hi rfl rfl (hn ▸ performReadSwitch_some hc hl hr)⟩
  · unfold State.zoneRecord
    rw [zoneArg_none hn]
  · unfold State.switchRecord
    rw [switchArg_none hn]

/-- Settles O13: the refusals and answers by the arguments, the bytes record by record, the long replies by `packReply_carries`. -/
theorem readRecords : Obligations.ReadRecords := by
  refine ⟨⟨readZoneSwitch_answers, fun s p n k hi => ⟨fun hn => idle_refuses hi rfl rfl ?_, fun t hn => idle_answers hi rfl rfl ?_,
      fun h => idle_answers hi rfl rfl ?_, fun c h => idle_answers hi rfl rfl ?_⟩⟩, fun s p n m hi =>
      ⟨fun h => idle_refuses hi rfl rfl (performReadStep_argument h), fun r k hn hm => idle_answers hi rfl rfl ?_⟩, ?_,
      packReply_carries⟩
  · show performReadTrain n k s = _
    unfold performReadTrain
    rw [trainArg_none hn]
  · show performReadTrain n k s = _
    unfold performReadTrain
    rw [hn, trainArg_val]
  · show performReadClaim n k s = _
    unfold performReadClaim Track.allClaims
    rw [h]
  · show performReadClaim n k s = _
    unfold performReadClaim Track.allClaims
    rw [h]
  · show performReadStep n m s = _
    unfold performReadStep
    rw [hn, hm, routeArg_val, stepArg_val]
    rfl
  · intro flag ms time place port
    have htime : ∀ x, time x = optField bytes3 x := fun x => by cases x <;> rfl
    have hplace : ∀ q, place q = positionCode q := fun q => by cases q <;> rfl
    have hport : ∀ x, port x = optByte (x.map (·.val)) := fun x => by cases x <;> rfl
    refine ⟨?_, ?_, fun q => ?_, fun o => by cases o <;> rfl, frame_bytes, legEntry_bytes, decision_bytes, fun r => ?_, fun l c a => ?_,
      fun x => by cases x <;> rfl, step_bytes⟩
    · intro e z l r hl level
      unfold zoneData
      rw [zoneKind_byte, zoneState_bytes, brake_bytes, countedBytes_singles, zoneLevels_eq hl]
      simp only [List.append_assoc]
      rfl
    · intro e w n l r level held
      refine ⟨?_, lockingTrains_sorted e w n, mem_lockingTrains e w n⟩
      unfold switchData
      rw [switchRecord_bytes, isLocked_eq, countedBytes_singles (fun t : TrainId => byteOf t.val), hport]
      simp only [hplace]
      simp only [List.append_assoc, List.cons_append, List.nil_append]
      cases l.kind <;> rfl
    · rw [hplace]
      rfl
    · unfold trainParts rideParts
      rw [trainState_byte, hport, htime, htime, htime]
      cases r.ride <;> rfl
    · rw [htime]
      exact claim_parts l c a

end Sys2Proof.Proofs
end

section
/-! SUPPORT. What keeps zone states, footprints and authorities in agreement (R18, R57, R58): the invariant, the changes it does not
see, and the change of one train. -/

namespace Sys2Proof.Machine

/-! ### The invariant -/

/-- A train in a state in which it can hold a leg (R59). -/
def Train.live (r : Train) : Prop :=
  r.state = .standing ∨ r.state = .claiming ∨ r.state = .cleared ∨ r.state = .running ∨ r.state = .halted

/-- Zone states, footprints, authorities, claims, sections and mode in agreement, but for zones on their way from one holder to
another and for the section record of a port that is about to change; `c` tells whether the layout is committed. -/
structure Track.Tidy (moving : List ZoneId) (port : Option PortId) (c : Bool) (w : Track) : Prop where
  ahead : ∀ (z : ZoneId) (t : TrainId), z ∈ (w.trains[t]).ahead → w.zoneState z = some (.reserved t)
  footprint : ∀ (z : ZoneId) (t : TrainId), z ∈ (w.trains[t]).footprint → w.zoneState z = some (.occupied t)
  reserved : ∀ (z : ZoneId) (t : TrainId), z ∉ moving → w.zoneState z = some (.reserved t) → z ∈ (w.trains[t]).ahead
  occupied : ∀ (z : ZoneId) (t : TrainId), z ∉ moving → w.zoneState z = some (.occupied t) → z ∈ (w.trains[t]).footprint
  lists : ∀ t : TrainId, (w.trains[t]).listsAgree
  claims : w.claimsAgree
  sections : ∀ (p : PortId) (h : HeldSection), some p ≠ port → w.sections[p] = .held h → ∀ z ∈ h.zones,
    w.zoneState z = some (.handed p)
  modes : (c = false → w.mode = .unconfigured ∨ w.mode = .estopped) ∧ (w.mode = .unconfigured → c = false)
  absent : c = false → ∀ t : TrainId, (w.trains[t]).state = .absent
  unheld : c = false → ∀ (p : PortId) (h : HeldSection), w.sections[p] ≠ .held h

/-- The legs of a layout each pass one zone or more, none twice. -/
def Layout.legsAgree (l : Layout) : Prop := ∀ g ∈ l.legs, g.zones ≠ [] ∧ g.zones.Nodup

theorem trackAgrees_iff (s : State) :
    s.trackAgrees ↔ s.layout.legsAgree ∧ s.track.Tidy [] none s.layout.committed := by
  constructor
  · rintro ⟨⟨hr, ho⟩, hl, hc, hs, hg, hm, hd⟩
    exact ⟨hg,
      { ahead := fun z t => (hr z t).2, footprint := fun z t => (ho z t).2, reserved := fun z t _ => (hr z t).1
        occupied := fun z t _ => (ho z t).1, lists := hl, claims := hc, sections := fun p h _ => hs p h, modes := hm
        absent := fun h => (hd h).1, unheld := fun h => (hd h).2 }⟩
  · rintro ⟨hg, h⟩
    exact ⟨⟨fun z t => ⟨h.reserved z t List.not_mem_nil, h.ahead z t⟩, fun z t => ⟨h.occupied z t List.not_mem_nil, h.footprint z t⟩⟩,
      h.lists, h.claims, fun p x => h.sections p x (by simp), hg, h.modes, fun hc => ⟨h.absent hc, h.unheld hc⟩⟩

/-- What agrees leaves no zone to two trains (R18). -/
theorem zonesAgree_noneShared {w : Track} (h : w.zonesAgree) : w.noneShared := by
  obtain ⟨hr, ho⟩ := h
  have hone : ∀ (z : ZoneId) (t : TrainId), z ∈ (w.trains[t]).footprint ∨ z ∈ (w.trains[t]).ahead →
      w.zoneState z = some (.occupied t) ∨ w.zoneState z = some (.reserved t) := fun z t => Or.imp (ho z t).2 (hr z t).2
  intro z t u
  constructor
  · intro ht hu
    rcases hone z t ht with ht | ht <;> rcases hone z u hu with hu | hu <;> rw [ht] at hu <;> simp at hu <;> exact hu
  · rintro ⟨hf, ha⟩
    have h1 := (ho z t).2 hf
    rw [(hr z t).2 ha] at h1
    simp at h1

/-! ### The changes it does not see -/

/-- Who holds a zone: the states in which none does are taken together. -/
def ZoneState.grip : ZoneState → ZoneState
  | .reserved t => .reserved t
  | .occupied t => .occupied t
  | .handed p => .handed p
  | .clear | .clearing _ _ | .unknown | .fault _ => .clear

theorem grip_reserved {o : Option ZoneState} {t : TrainId} : o.map ZoneState.grip = some (.reserved t) ↔ o = some (.reserved t) := by
  cases o with
  | none => simp
  | some s => cases s <;> simp [ZoneState.grip]

theorem grip_occupied {o : Option ZoneState} {t : TrainId} : o.map ZoneState.grip = some (.occupied t) ↔ o = some (.occupied t) := by
  cases o with
  | none => simp
  | some s => cases s <;> simp [ZoneState.grip]

theorem grip_handed {o : Option ZoneState} {p : PortId} : o.map ZoneState.grip = some (.handed p) ↔ o = some (.handed p) := by
  cases o with
  | none => simp
  | some s => cases s <;> simp [ZoneState.grip]

/-- The LEG claims of the track after come from those before, or are new, for a leg with zones and a train that can hold it. -/
def claimsFrom (a b : Track) : Prop := ∀ (c : Claim) (g : LegClaim), c ∈ b.claims ++ b.line → c.body = .leg g →
  (∃ d ∈ a.claims ++ a.line, d.body = c.body) ∨ (g.zones ≠ [] ∧ g.zones.Nodup ∧ (b.trains[g.train]).live)

/-- A change that leaves every zone to its holder and every train its zones. -/
structure Quiet (a b : Track) : Prop where
  mode : b.mode = a.mode
  zones : ∀ z : ZoneId, (b.zoneState z).map ZoneState.grip = (a.zoneState z).map ZoneState.grip
  footprint : ∀ t : TrainId, (b.trains[t]).footprint = (a.trains[t]).footprint
  authority : ∀ t : TrainId, (b.trains[t]).authority.map (·.zones) = (a.trains[t]).authority.map (·.zones)
  state : ∀ t : TrainId, (b.trains[t]).state = (a.trains[t]).state ∨
    ((a.trains[t]).live ∧ (b.trains[t]).live ∧ ((b.trains[t]).atRest = true → ∃ z, (a.trains[t]).footprint = [z]))
  claims : claimsFrom a b
  sections : ∀ (p : PortId) (h : HeldSection), b.sections[p] = .held h → ∃ x, a.sections[p] = .held x ∧ h.zones = x.zones

namespace Quiet
variable {a b c : Track}

theorem reserved (h : Quiet a b) (z : ZoneId) (t : TrainId) : b.zoneState z = some (.reserved t) ↔ a.zoneState z = some (.reserved t) := by
  rw [← grip_reserved, h.zones, grip_reserved]

theorem occupied (h : Quiet a b) (z : ZoneId) (t : TrainId) : b.zoneState z = some (.occupied t) ↔ a.zoneState z = some (.occupied t) := by
  rw [← grip_occupied, h.zones, grip_occupied]

theorem handed (h : Quiet a b) (z : ZoneId) (p : PortId) : b.zoneState z = some (.handed p) ↔ a.zoneState z = some (.handed p) := by
  rw [← grip_handed, h.zones, grip_handed]

theorem ahead (h : Quiet a b) (t : TrainId) : (b.trains[t]).ahead = (a.trains[t]).ahead := by
  unfold Train.ahead
  rw [List.flatMap_def, List.flatMap_def, h.authority]

theorem live (h : Quiet a b) {t : TrainId} (ht : (a.trains[t]).live) : (b.trains[t]).live := by
  rcases h.state t with hs | ⟨-, hb, -⟩
  · unfold Train.live
    rw [hs]
    exact ht
  · exact hb

theorem refl (a : Track) : Quiet a a :=
  ⟨rfl, fun _ => rfl, fun _ => rfl, fun _ => rfl, fun _ => .inl rfl, fun c _ hc _ => .inl ⟨c, hc, rfl⟩, fun _ h hh => ⟨h, hh, rfl⟩⟩

theorem trans (h : Quiet a b) (k : Quiet b c) : Quiet a c where
  mode := k.mode.trans h.mode
  zones z := (k.zones z).trans (h.zones z)
  footprint t := (k.footprint t).trans (h.footprint t)
  authority t := (k.authority t).trans (h.authority t)
  state t := by
    rcases k.state t with hk | ⟨hb, hc, hr⟩
    · rcases h.state t with hh | ⟨ha, hb, hr⟩
      · exact .inl (hk.trans hh)
      · refine .inr ⟨ha, ?_, fun hx => hr ?_⟩
        · unfold Train.live
          rw [hk]
          exact hb
        · unfold Train.atRest at hx ⊢
          rw [← hk]
          exact hx
    · have ha : (a.trains[t]).live := by
        rcases h.state t with hh | ⟨ha, -, -⟩
        · unfold Train.live
          rw [← hh]
          exact hb
        · exact ha
      exact .inr ⟨ha, hc, fun hx => by rw [← h.footprint t]; exact hr hx⟩
  claims x g hx hg := by
    rcases k.claims x g hx hg with ⟨d, hd, he⟩ | hn
    · rcases h.claims d g hd (he.trans hg) with ⟨d', hd', he'⟩ | ⟨hz, hu, hl⟩
      · exact .inl ⟨d', hd', he'.trans he⟩
      · exact .inr ⟨hz, hu, k.live hl⟩
    · exact .inr hn
  sections p x hx := by
    obtain ⟨y, hy, he⟩ := k.sections p x hx
    obtain ⟨v, hv, hf⟩ := h.sections p y hy
    exact ⟨v, hv, he.trans hf⟩

theorem listsAgree (h : Quiet a b) {t : TrainId} (hl : (a.trains[t]).listsAgree) : (b.trains[t]).listsAgree := by
  obtain ⟨hf, ha, hg, hn, hs, hr⟩ := hl
  have hnil : (b.trains[t]).authority = [] ↔ (a.trains[t]).authority = [] := by
    rw [← List.map_eq_nil_iff (f := LegEntry.zones), h.authority, List.map_eq_nil_iff]
  refine ⟨h.footprint t ▸ hf, h.ahead t ▸ ha, fun g hm => ?_, fun hx => ?_, fun hx => ?_, fun hx => ?_⟩
  · have hz : g.zones ∈ (a.trains[t]).authority.map (·.zones) := h.authority t ▸ List.mem_map_of_mem hm
    obtain ⟨q, hq, he⟩ := List.mem_map.1 hz
    rw [← he]
    exact hg q hq
  · rw [h.footprint t, hnil]
    rcases h.state t with hb | ⟨-, hb, -⟩
    · rw [hb] at hx
      exact hn hx
    · rcases hx with hx | hx | hx <;> rw [Train.live, hx] at hb <;> simp at hb
  · rw [hnil]
    rcases h.state t with hb | ⟨-, hb, -⟩
    · rw [hb] at hx
      exact hs hx
    · rw [Train.live, hx] at hb
      simp at hb
  · rw [h.footprint t]
    rcases h.state t with hb | ⟨-, -, hb⟩
    · refine hr ?_
      unfold Train.atRest at hx ⊢
      rw [← hb]
      exact hx
    · exact hb hx

theorem tidy {Z x k} (h : Quiet a b) (w : a.Tidy Z x k) : b.Tidy Z x k where
  ahead z t hz := (h.reserved z t).2 (w.ahead z t (h.ahead t ▸ hz))
  footprint z t hz := (h.occupied z t).2 (w.footprint z t (h.footprint t ▸ hz))
  reserved z t hm hz := (h.ahead t).symm ▸ w.reserved z t hm ((h.reserved z t).1 hz)
  occupied z t hm hz := (h.footprint t).symm ▸ w.occupied z t hm ((h.occupied z t).1 hz)
  lists t := h.listsAgree (w.lists t)
  claims x g hx hg := by
    rcases h.claims x g hx hg with ⟨d, hd, he⟩ | hn
    · obtain ⟨hz, hu, hl⟩ := w.claims d g hd (he.trans hg)
      exact ⟨hz, hu, h.live hl⟩
    · exact hn
  sections p y hp hy z hz := by
    obtain ⟨v, hv, he⟩ := h.sections p y hy
    exact (h.handed z p).2 (w.sections p v hp hv z (he ▸ hz))
  modes := h.mode.symm ▸ w.modes
  absent hc t := by
    rcases h.state t with hb | ⟨ha, -, -⟩
    · exact hb.trans (w.absent hc t)
    · rw [Train.live, w.absent hc t] at ha
      simp at ha
  unheld hc p y hy := by
    obtain ⟨v, hv, -⟩ := h.sections p y hy
    exact w.unheld hc p v hv

/-- A change outside zones, trains and sections. -/
theorem of_same {v w : Work} (hm : v.mode = w.mode) (hz : v.zones = w.zones) (ht : v.trains = w.trains)
    (hs : v.sections = w.sections) (hc : claimsFrom w.toTrack v.toTrack) : Quiet w.toTrack v.toTrack where
  mode := hm
  zones z := by unfold Track.zoneState; rw [hz]
  footprint t := by rw [ht]
  authority t := by rw [ht]
  state t := .inl (by rw [ht])
  claims := hc
  sections p h hh := ⟨h, hs ▸ hh, rfl⟩

end Quiet

/-- Claims none of which is new. -/
theorem claimsFrom_sub {a b : Track} (h : ∀ c ∈ b.claims ++ b.line, c ∈ a.claims ++ a.line) : claimsFrom a b :=
  fun c _ hc _ => .inl ⟨c, h c hc, rfl⟩

theorem claimsFrom_same {a b : Track} (hc : b.claims = a.claims) (hl : b.line = a.line) : claimsFrom a b :=
  claimsFrom_sub fun c h => by rw [← hc, ← hl]; exact h

section
variable (w : Work)

theorem quiet_post (ps : List PortId) (n : NoticeName) (x : Subject) (a b : Byte) : Quiet w.toTrack (w.post ps n x a b).toTrack :=
  .refl _

theorem quiet_modifySwitch (n : SwitchId) (f : Switch → Switch) : Quiet w.toTrack (w.modifySwitch n f).toTrack :=
  .of_same rfl rfl rfl rfl (claimsFrom_same rfl rfl)

theorem quiet_startMove (e : Env) (n : SwitchId) (q : Position) (x : Served) : Quiet w.toTrack (startMove e n q x w).toTrack :=
  quiet_modifySwitch w n _

theorem quiet_unserve (cs : List Claim) : Quiet w.toTrack (unserve cs w).toTrack := by
  unfold unserve
  exact .of_same rfl rfl rfl rfl (claimsFrom_same rfl rfl)

theorem quiet_dropClaims (gone : Claim → Bool) : Quiet w.toTrack (dropClaims gone w).toTrack :=
  .of_same rfl rfl rfl rfl (claimsFrom_sub (dropClaims_sub gone w))

theorem quiet_mapClaims (f : Claim → Claim) (hf : ∀ c, (f c).body = c.body) : Quiet w.toTrack (mapClaims f w).toTrack := by
  refine .of_same rfl rfl rfl rfl fun c g hc _ => .inl ?_
  have hm : c ∈ (w.claims ++ w.line).map f := by rw [List.map_append]; exact hc
  obtain ⟨d, hd, rfl⟩ := List.mem_map.1 hm
  exact ⟨d, hd, (hf d).symm⟩

theorem quiet_setTracker (z : ZoneId) (k : Tracker) : Quiet w.toTrack (w.setTracker z k).toTrack :=
  .of_same rfl rfl rfl rfl (claimsFrom_same rfl rfl)

theorem quiet_postAbort (t : TrainId) (o : Option Origin) (x : AbortCause) : Quiet w.toTrack (postAbort t o x w).toTrack := by
  unfold postAbort
  split <;> exact .refl _

/-- The claims after a claim has arrived. -/
theorem mem_arriveClaim (b : ClaimBody) (o : Option Nat) (c : Claim)
    (h : c ∈ (arriveClaim b o w).claims ++ (arriveClaim b o w).line) : c ∈ w.claims ++ w.line ∨ c.body = b := by
  unfold arriveClaim at h
  dsimp only at h
  split at h
  · simp only [List.append_assoc, List.mem_append, List.mem_singleton] at h ⊢
    rcases h with h | rfl | h
    · exact .inl (.inl h)
    · exact .inr rfl
    · exact .inl (.inr h)
  · simp only [List.mem_append, List.mem_singleton] at h ⊢
    rcases h with h | h | rfl
    · exact .inl (.inl h)
    · exact .inl (.inr h)
    · exact .inr rfl

/-- A claim arrives: for a leg, one with zones for a train that can hold it. -/
theorem quiet_arriveClaim (b : ClaimBody) (o : Option Nat)
    (hb : ∀ g, b = .leg g → g.zones ≠ [] ∧ g.zones.Nodup ∧ (w.trains[g.train]).live) :
    Quiet w.toTrack (arriveClaim b o w).toTrack := by
  obtain ⟨cl, li, n, h⟩ := arriveClaim_frame b o w
  have hc : claimsFrom w.toTrack (arriveClaim b o w).toTrack := fun c g hc hg => by
    rcases mem_arriveClaim w b o c hc with hc | hc
    · exact .inl ⟨c, hc, rfl⟩
    · refine .inr ?_
      rw [h]
      exact hb g (hc.symm.trans hg)
  rw [h] at hc ⊢
  exact .of_same rfl rfl rfl rfl hc

theorem setTrain_zoneState (t : TrainId) (r : Train) (z : ZoneId) : (w.setTrain t r).zoneState z = w.zoneState z := rfl

/-- A train's record changed, its zones kept. -/
theorem quiet_modifyTrain (t : TrainId) (f : Train → Train) (hf : (f w.trains[t]).footprint = (w.trains[t]).footprint)
    (ha : (f w.trains[t]).authority.map (·.zones) = (w.trains[t]).authority.map (·.zones))
    (hs : (f w.trains[t]).state = (w.trains[t]).state ∨ ((w.trains[t]).live ∧ (f w.trains[t]).live ∧
      ((f w.trains[t]).atRest = true → ∃ z, (w.trains[t]).footprint = [z]))) :
    Quiet w.toTrack (w.modifyTrain t f).toTrack where
  mode := rfl
  zones _ := rfl
  footprint u := by
    by_cases h : u = t
    · subst h; rw [modifyTrain_self]; exact hf
    · rw [modifyTrain_other _ _ h]
  authority u := by
    by_cases h : u = t
    · subst h; rw [modifyTrain_self]; exact ha
    · rw [modifyTrain_other _ _ h]
  state u := by
    by_cases h : u = t
    · subst h; rw [modifyTrain_self]; exact hs
    · rw [modifyTrain_other _ _ h]; exact .inl rfl
  claims := claimsFrom_same rfl rfl
  sections _ h hh := ⟨h, hh, rfl⟩

/-- Zones that change between states in which none holds them, or in other fields. -/
theorem quiet_zones (v : Vector (Option Zone) 32)
    (h : ∀ z : ZoneId, (v[z].map (·.state)).map ZoneState.grip = (w.zoneState z).map ZoneState.grip) :
    Quiet w.toTrack ({ w with zones := v } : Work).toTrack where
  mode := rfl
  zones := h
  footprint _ := rfl
  authority _ := rfl
  state _ := .inl rfl
  claims := claimsFrom_same rfl rfl
  sections _ h hh := ⟨h, hh, rfl⟩

/-- A zone changes between states in which none holds it. -/
theorem quiet_setZone (z : ZoneId) (s : ZoneState) (h : (w.zoneState z).map (fun _ => s.grip) = (w.zoneState z).map ZoneState.grip) :
    Quiet w.toTrack (w.setZone z s).toTrack := by
  refine quiet_zones w _ fun y => ?_
  have hy : (w.setZone z s).zoneState y = if z = y then (w.zoneState y).map (fun _ => s) else w.zoneState y :=
    setZone_zoneState w z y s
  refine (congrArg (Option.map ZoneState.grip) hy).trans ?_
  split
  · next e =>
    subst e
    rw [← h, Option.map_map]
    rfl
  · rfl

theorem quiet_setSupervision (z : ZoneId) (s : Supervision) : Quiet w.toTrack (w.setSupervision z s).toTrack := by
  refine quiet_zones w _ fun y => ?_
  rw [vector_get_set]
  unfold Track.zoneState
  split
  · next e =>
    subst e
    cases w.zones[z] <;> rfl
  · rfl

/-- A section record changed, its zones kept; or none. -/
theorem quiet_setSection (p : PortId) (x : Section) (h : ∀ y, x = .held y → ∃ v, w.sections[p] = .held v ∧ y.zones = v.zones) :
    Quiet w.toTrack (w.setSection p x).toTrack where
  mode := rfl
  zones _ := rfl
  footprint _ := rfl
  authority _ := rfl
  state _ := .inl rfl
  claims := claimsFrom_same rfl rfl
  sections q y hy := by
    have hq : (w.setSection p x).sections[q] = if p = q then x else w.sections[q] := vector_get_set _ _ _ _
    rw [hq] at hy
    split at hy
    · next e => exact e ▸ h y hy
    · exact ⟨y, hy, rfl⟩

/-- Trains that are cleared rest in one zone (R65). -/
theorem quiet_applyRelease (e : Env) : Quiet w.toTrack (applyRelease e w).toTrack := by
  have htrain : ∀ t : TrainId, (applyRelease e w).trains[t] = w.trains[t] ∨ (opensFor w.toTrack w.trains[t] (((w.trains[t]).rest).getD 0) ∧
      ∃ d, (applyRelease e w).trains[t] = { w.trains[t] with state := .cleared, departure := d }) := by
    intro t
    by_cases h : ∃ z, opensFor w.toTrack w.trains[t] z
    · obtain ⟨z, hz⟩ := h
      have hr : (w.trains[t]).rest = some z := rest_some.2 hz.2.1
      exact .inr ⟨by rw [hr]; exact hz, _, applyRelease_opens e hz⟩
    · exact .inl (applyRelease_stays e (not_exists.1 h))
  refine
    { mode := applyRelease_mode e w, zones := fun z => ?_, footprint := fun t => ?_, authority := fun t => ?_, state := fun t => ?_
      claims := claimsFrom_same (applyRelease_claims e w) (applyRelease_line e w)
      sections := fun p h hh => ⟨h, by rwa [applyRelease_sections] at hh, rfl⟩ }
  · unfold Track.zoneState
    rw [applyRelease_zone]
    cases w.zones[z] <;> rfl
  · rcases htrain t with h | ⟨-, d, h⟩ <;> rw [h]
  · rcases htrain t with h | ⟨-, d, h⟩ <;> rw [h]
  · rcases htrain t with h | ⟨ho, d, h⟩
    · exact .inl (by rw [h])
    · obtain ⟨hs, hf, -⟩ := ho
      rw [h]
      exact .inr ⟨hs.elim .inl fun x => .inr (.inl x), .inr (.inr (.inl rfl)), fun _ => ⟨_, hf⟩⟩

end

/-! ### The change of one train -/

/-- One train's zones change: each zone it takes was free or its own, each it gives up goes to nobody, and no other holder's
zone is touched. -/
structure Retrained (moving : List ZoneId) (c : Bool) (t : TrainId) (a b : Track) : Prop where
  mode : b.mode = a.mode
  others : ∀ u : TrainId, u ≠ t → b.trains[u] = a.trains[u]
  reserved : ∀ (z : ZoneId) (u : TrainId), u ≠ t → (b.zoneState z = some (.reserved u) ↔ a.zoneState z = some (.reserved u))
  occupied : ∀ (z : ZoneId) (u : TrainId), u ≠ t → (b.zoneState z = some (.occupied u) ↔ a.zoneState z = some (.occupied u))
  handed : ∀ (z : ZoneId) (p : PortId), a.zoneState z = some (.handed p) → b.zoneState z = some (.handed p)
  ahead : ∀ z : ZoneId, z ∈ (b.trains[t]).ahead → b.zoneState z = some (.reserved t)
  footprint : ∀ z : ZoneId, z ∈ (b.trains[t]).footprint → b.zoneState z = some (.occupied t)
  reservedBy : ∀ z : ZoneId, z ∉ moving → b.zoneState z = some (.reserved t) → z ∈ (b.trains[t]).ahead
  occupiedBy : ∀ z : ZoneId, z ∉ moving → b.zoneState z = some (.occupied t) → z ∈ (b.trains[t]).footprint
  lists : (b.trains[t]).listsAgree
  claims : ∀ (x : Claim) (g : LegClaim), x ∈ b.claims ++ b.line → x.body = .leg g →
    ((∃ d ∈ a.claims ++ a.line, d.body = x.body) ∧ (g.train = t → (b.trains[t]).live)) ∨
      (g.zones ≠ [] ∧ g.zones.Nodup ∧ (b.trains[g.train]).live)
  sections : ∀ (p : PortId) (h : HeldSection), b.sections[p] = .held h → a.sections[p] = .held h
  absent : c = false → (b.trains[t]).state = .absent

theorem Retrained.tidy {Z : List ZoneId} {x : Option PortId} {c : Bool} {t : TrainId} {a b : Track} (h : Retrained Z c t a b)
    (w : a.Tidy Z x c) : b.Tidy Z x c where
  ahead z u hz := by
    by_cases e : u = t
    · subst e; exact h.ahead z hz
    · rw [h.others u e] at hz
      exact (h.reserved z u e).2 (w.ahead z u hz)
  footprint z u hz := by
    by_cases e : u = t
    · subst e; exact h.footprint z hz
    · rw [h.others u e] at hz
      exact (h.occupied z u e).2 (w.footprint z u hz)
  reserved z u hm hz := by
    by_cases e : u = t
    · subst e; exact h.reservedBy z hm hz
    · rw [h.others u e]
      exact w.reserved z u hm ((h.reserved z u e).1 hz)
  occupied z u hm hz := by
    by_cases e : u = t
    · subst e; exact h.occupiedBy z hm hz
    · rw [h.others u e]
      exact w.occupied z u hm ((h.occupied z u e).1 hz)
  lists u := by
    by_cases e : u = t
    · subst e; exact h.lists
    · rw [h.others u e]
      exact w.lists u
  claims y g hy hg := by
    rcases h.claims y g hy hg with ⟨⟨d, hd, hb⟩, ht⟩ | hn
    · obtain ⟨hz, hu, hl⟩ := w.claims d g hd (hb.trans hg)
      refine ⟨hz, hu, ?_⟩
      by_cases e : g.train = t
      · subst e; exact ht rfl
      · rw [h.others _ e]; exact hl
    · exact hn
  sections p y hp hy z hz := h.handed z p (w.sections p y hp (h.sections p y hy) z hz)
  modes := h.mode.symm ▸ w.modes
  absent hc u := by
    by_cases e : u = t
    · subst e; exact h.absent hc
    · rw [h.others u e]
      exact w.absent hc u
  unheld hc p y hy := w.unheld hc p y (h.sections p y hy)

/-- With the layout committed or a train that is not ABSENT, the layout is committed. -/
theorem Track.Tidy.committed {Z : List ZoneId} {x : Option PortId} {c : Bool} {a : Track} (w : a.Tidy Z x c) {t : TrainId}
    (h : (a.trains[t]).state ≠ .absent) : c = true := by
  cases c with
  | true => rfl
  | false => exact absurd (w.absent rfl t) h

theorem live_ne {r : Train} (h : r.live) : r.state ≠ .absent ∧ r.state ≠ .manual ∧ r.state ≠ .lost ∧ r.state ≠ .stored := by
  refine ⟨?_, ?_, ?_, ?_⟩ <;> intro hs <;> rw [Train.live, hs] at h <;> simp at h

/-- A state that is at rest, or is not tracked. -/
theorem listsAgree_of_live {r : Train} (h : r.live) (hf : r.footprint.Nodup) (ha : r.ahead.Nodup) (hz : ∀ g ∈ r.authority, g.zones ≠ [])
    (hr : r.atRest = true → ∃ z, r.footprint = [z]) : r.listsAgree := by
  obtain ⟨h1, h2, h3, h4⟩ := live_ne h
  exact ⟨hf, ha, hz, fun x => absurd x (by simp [h1, h2, h3]), fun x => absurd x h4, hr⟩

/-- A train without zones. -/
theorem listsAgree_of_none {r : Train} (hf : r.footprint = []) (ha : r.authority = []) (hr : r.atRest = false) : r.listsAgree := by
  refine ⟨hf ▸ List.nodup_nil, ?_, ?_, fun _ => ⟨hf, ha⟩, fun _ => ha, fun h => ?_⟩
  · unfold Train.ahead
    rw [ha]
    exact List.nodup_nil
  · rw [ha]
    exact fun g hg => absurd hg List.not_mem_nil
  · rw [hr] at h
    cases h

/-! ### Leg entries given back (R19, R58) -/

theorem ahead_take_drop (r : Train) (k : Nat) :
    r.ahead = (r.authority.take k).flatMap (·.zones) ++ (r.authority.drop k).flatMap (·.zones) := by
  unfold Train.ahead
  rw [← List.flatMap_append, List.take_append_drop]

theorem removeEntries_tidy {Z : List ZoneId} {x : Option PortId} {c : Bool} (t : TrainId) (k : Nat) {w : Work} (h : w.Tidy Z x c) :
    (removeEntries t k w).Tidy Z x c := by
  obtain ⟨hfp, hah, hne, hno, hst, hre⟩ := h.lists t
  have hsplit := ahead_take_drop w.trains[t] k
  have hgone : ∀ z, z ∈ goneZones t k w → w.zoneState z = some (.reserved t) := fun z hz =>
    h.ahead z t (by rw [hsplit]; exact List.mem_append_right _ hz)
  have hdisj : ∀ z, z ∈ ((w.trains[t]).authority.take k).flatMap (·.zones) → z ∉ goneZones t k w := fun z hz hg => by
    rw [hsplit] at hah
    exact (List.disjoint_of_nodup_append hah) hz hg
  have hstate : ∀ z s, s ≠ .clear → ((removeEntries t k w).zoneState z = some s ↔ z ∉ goneZones t k w ∧ w.zoneState z = some s) := by
    intro z s hs
    rw [removeEntries_zoneState]
    by_cases hz : z ∈ goneZones t k w
    · rw [if_pos ⟨hz, hgone z hz⟩]
      exact ⟨fun e => absurd (Option.some.inj e).symm hs, fun e => absurd hz e.1⟩
    · rw [if_neg fun e => hz e.1]
      exact ⟨fun e => ⟨hz, e⟩, fun e => e.2⟩
  have hkeep : ∀ z s, s ≠ .clear → s ≠ .reserved t →
      ((removeEntries t k w).zoneState z = some s ↔ w.zoneState z = some s) := by
    intro z s hs hr
    rw [hstate z s hs]
    refine ⟨fun e => e.2, fun e => ⟨fun hz => hr ?_, e⟩⟩
    exact (Option.some.inj ((hgone z hz).symm.trans e)).symm
  have hself := removeEntries_self t k w
  have hahead : ((removeEntries t k w).trains[t]).ahead = ((w.trains[t]).authority.take k).flatMap (·.zones) := by
    rw [hself]
    rfl
  refine Retrained.tidy (t := t)
    { mode := removeEntries_mode t k w, others := fun u hu => removeEntries_other t k w hu
      reserved := fun z u hu => hkeep z _ (by simp) (by simpa using hu), occupied := fun z u _ => hkeep z _ (by simp) (by simp)
      handed := fun z p => (hkeep z _ (by simp) (by simp)).2, ahead := fun z hz => ?_, footprint := fun z hz => ?_
      reservedBy := fun z hm hz => ?_, occupiedBy := fun z hm hz => ?_, lists := ?_, claims := fun y g hy hg => ?_
      sections := fun p y hy => by rwa [removeEntries_sections] at hy, absent := fun hc => ?_ } h
  · rw [hahead] at hz
    exact (hstate z _ (by simp)).2 ⟨hdisj z hz, h.ahead z t (by rw [hsplit]; exact List.mem_append_left _ hz)⟩
  · rw [hself] at hz
    exact (hkeep z _ (by simp) (by simp)).2 (h.footprint z t hz)
  · obtain ⟨hz, hr⟩ := (hstate z _ (by simp)).1 hz
    have hm' := h.reserved z t hm hr
    rw [hsplit] at hm'
    rw [hahead]
    exact (List.mem_append.1 hm').resolve_right hz
  · rw [hself]
    exact h.occupied z t hm ((hkeep z _ (by simp) (by simp)).1 hz)
  · rw [hsplit] at hah
    rw [hself]
    refine ⟨hfp, hah.of_append_left, fun g hg => hne g (List.mem_of_mem_take hg), fun hs => ?_, fun hs => ?_, hre⟩
    · obtain ⟨h1, h2⟩ := hno hs
      exact ⟨h1, by dsimp only; rw [h2]; exact List.take_nil⟩
    · dsimp only
      rw [hst hs]
      exact List.take_nil
  · refine .inl ⟨⟨y, removeEntries_sub t k w y hy, rfl⟩, fun e => ?_⟩
    obtain ⟨-, -, hl⟩ := h.claims y g (removeEntries_sub t k w y hy) hg
    subst e
    rw [hself]
    exact hl
  · rw [hself]
    exact h.absent hc t

end Sys2Proof.Machine
end

section
/-! SUPPORT. Operations that keep zone states, footprints and authorities in agreement: claims formed, withdrawn and returned, the
grants of the arbiter, the evaluation, trains coming to rest and moves that arrive (R59 to R64, R97 to R110, R129, R140, R141). -/

namespace Sys2Proof.Machine

/-! ### Changes that keep the trains where they stand -/

/-- A change that keeps the agreement, with every footprint and every train that can hold a leg; of the zones it may give up some that
were RESERVED. -/
structure Calm (a b : Track) : Prop where
  tidy : ∀ {Z : List ZoneId} {x : Option PortId} {c : Bool}, a.Tidy Z x c → b.Tidy Z x c
  mode : b.mode = a.mode
  footprint : ∀ t : TrainId, (b.trains[t]).footprint = (a.trains[t]).footprint
  state : ∀ t : TrainId, (b.trains[t]).state = (a.trains[t]).state ∨ ((a.trains[t]).live ∧ (b.trains[t]).live)
  zones : ∀ z : ZoneId, (b.zoneState z).map ZoneState.grip = (a.zoneState z).map ZoneState.grip ∨
    ((∃ t, a.zoneState z = some (.reserved t)) ∧ (b.zoneState z).map ZoneState.grip = some .clear)

theorem Quiet.calm {a b : Track} (h : Quiet a b) : Calm a b :=
  ⟨h.tidy, h.mode, h.footprint, fun t => (h.state t).imp_right fun x => ⟨x.1, x.2.1⟩, fun z => .inl (h.zones z)⟩

namespace Calm
variable {a b c : Track}

theorem refl (a : Track) : Calm a a := (Quiet.refl a).calm

theorem live (h : Calm a b) {t : TrainId} (ht : (a.trains[t]).live) : (b.trains[t]).live := by
  rcases h.state t with hs | ⟨-, hb⟩
  · unfold Train.live
    rw [hs]
    exact ht
  · exact hb

theorem live_back (h : Calm a b) {t : TrainId} (ht : (b.trains[t]).live) : (a.trains[t]).live := by
  rcases h.state t with hs | ⟨ha, -⟩
  · unfold Train.live
    rw [← hs]
    exact ht
  · exact ha

theorem trans (h : Calm a b) (k : Calm b c) : Calm a c where
  tidy w := k.tidy (h.tidy w)
  mode := k.mode.trans h.mode
  footprint t := (k.footprint t).trans (h.footprint t)
  state t := by
    rcases k.state t with hk | ⟨hb, hc⟩
    · rcases h.state t with hh | ⟨ha, hb⟩
      · exact .inl (hk.trans hh)
      · refine .inr ⟨ha, ?_⟩
        unfold Train.live
        rw [hk]
        exact hb
    · exact .inr ⟨h.live_back hb, hc⟩
  zones z := by
    rcases k.zones z with hk | ⟨⟨t, hr⟩, hk⟩
    · rcases h.zones z with hh | ⟨hr, hh⟩
      · exact .inl (hk.trans hh)
      · exact .inr ⟨hr, hk.trans hh⟩
    · rcases h.zones z with hh | ⟨hr, -⟩
      · exact .inr ⟨⟨t, grip_reserved.1 (hh ▸ grip_reserved.2 hr)⟩, hk⟩
      · exact .inr ⟨hr, hk⟩

theorem reserved (h : Calm a b) {z : ZoneId} {t : TrainId} (hr : b.zoneState z = some (.reserved t)) :
    a.zoneState z = some (.reserved t) := by
  rcases h.zones z with hz | ⟨-, hz⟩
  · exact grip_reserved.1 (hz ▸ grip_reserved.2 hr)
  · rw [grip_reserved.2 hr] at hz
    simp at hz

theorem occupied (h : Calm a b) (z : ZoneId) (t : TrainId) : b.zoneState z = some (.occupied t) ↔ a.zoneState z = some (.occupied t) := by
  rcases h.zones z with hz | ⟨⟨u, hr⟩, hz⟩
  · rw [← grip_occupied, hz, grip_occupied]
  · rw [← grip_occupied, hz, hr]
    simp

theorem handed (h : Calm a b) (z : ZoneId) (p : PortId) : b.zoneState z = some (.handed p) ↔ a.zoneState z = some (.handed p) := by
  rcases h.zones z with hz | ⟨⟨u, hr⟩, hz⟩
  · rw [← grip_handed, hz, grip_handed]
  · rw [← grip_handed, hz, hr]
    simp

theorem defined (h : Calm a b) {z : ZoneId} (hz : a.zoneState z ≠ none) : b.zoneState z ≠ none := by
  intro hn
  rcases h.zones z with h' | ⟨-, h'⟩
  · rw [hn] at h'
    exact hz (Option.map_eq_none_iff.1 h'.symm)
  · rw [hn] at h'
    cases h'

theorem foldl {α : Type} {f : Work → α → Work} (hf : ∀ w x, Calm w.toTrack (f w x).toTrack) (xs : List α) (w : Work) :
    Calm w.toTrack (xs.foldl f w).toTrack := by
  induction xs generalizing w with
  | nil => exact .refl _
  | cons x xs ih => exact (hf w x).trans (ih _)

end Calm

theorem Quiet.foldl {α : Type} {f : Work → α → Work} (hf : ∀ w x, Quiet w.toTrack (f w x).toTrack) (xs : List α) (w : Work) :
    Quiet w.toTrack (xs.foldl f w).toTrack := by
  induction xs generalizing w with
  | nil => exact .refl _
  | cons x xs ih => exact (hf w x).trans (ih _)

/-! ### Entries, claims withdrawn and returned (R58, R102, R103, R110) -/

theorem calm_removeEntries (t : TrainId) (k : Nat) (w : Work) : Calm w.toTrack (removeEntries t k w).toTrack where
  tidy := removeEntries_tidy t k
  mode := removeEntries_mode t k w
  footprint u := by
    by_cases h : u = t
    · subst h; rw [removeEntries_self]
    · rw [removeEntries_other _ _ _ h]
  state u := by
    by_cases h : u = t
    · subst h; exact .inl (by rw [removeEntries_self])
    · exact .inl (by rw [removeEntries_other _ _ _ h])
  zones z := by
    rw [removeEntries_zoneState]
    split
    · next h => exact .inr ⟨⟨t, h.2⟩, rfl⟩
    · exact .inl rfl

theorem calm_releaseEntryOf (c : Claim) (w : Work) : Calm w.toTrack (releaseEntryOf c w).toTrack := by
  unfold releaseEntryOf
  split
  · exact calm_removeEntries _ _ w
  · exact .refl _

theorem quiet_standIfClaimless (t : TrainId) (w : Work) : Quiet w.toTrack (standIfClaimless t w).toTrack := by
  by_cases h : ∃ z, claimless t w.toTrack z
  · obtain ⟨z, hz⟩ := h
    have hz' := hz
    obtain ⟨hs, hf, -⟩ := hz'
    rw [standIfClaimless_alone hz]
    exact quiet_modifyTrain w t (fun r => { r with state := .standing }) rfl rfl
      (.inr ⟨.inr (.inl hs), .inl rfl, fun _ => ⟨z, hf⟩⟩)
  · rw [standIfClaimless_claimed (not_exists.1 h)]
    exact .refl _

theorem calm_withdrawClaim (c : Claim) (w : Work) : Calm w.toTrack (withdrawClaim c w).toTrack := by
  have h := (calm_releaseEntryOf c w).trans (quiet_dropClaims (releaseEntryOf c w) fun d => d.same c).calm
  cases hb : c.body with
  | leg g =>
    rw [withdrawClaim_leg hb]
    exact h.trans (quiet_standIfClaimless _ _).calm
  | sectionOf g =>
    rw [withdrawClaim_section hb]
    exact h

theorem calm_withdrawAll (gone : Claim → Bool) (w : Work) : Calm w.toTrack (withdrawAll gone w).toTrack := by
  unfold withdrawAll
  refine Calm.foldl (fun v c => ?_) _ w
  split
  · exact calm_withdrawClaim c v
  · exact .refl _

theorem calm_returnToWaiting (c : Claim) (w : Work) : Calm w.toTrack (returnToWaiting c w).toTrack := by
  unfold returnToWaiting
  refine (calm_releaseEntryOf c w).trans ((quiet_mapClaims _ _ fun d => ?_).trans (quiet_unserve _ _)).calm
  split <;> rfl

theorem calm_returnAll (w : Work) : Calm w.toTrack (returnAllToWaiting w).toTrack := by
  unfold returnAllToWaiting
  refine Calm.foldl (fun v c => ?_) _ w
  split
  · exact calm_returnToWaiting c v
  · exact .refl _

theorem releaseEntryOf_sub (c : Claim) (w : Work) (d : Claim) (h : d ∈ (releaseEntryOf c w).claims ++ (releaseEntryOf c w).line) :
    d ∈ w.claims ++ w.line := by
  unfold releaseEntryOf at h
  split at h
  · exact removeEntries_sub _ _ w d h
  · exact h

/-- A withdrawn claim is gone, and no claim is new. -/
theorem withdrawClaim_sub (c : Claim) (w : Work) (d : Claim) (h : d ∈ (withdrawClaim c w).claims ++ (withdrawClaim c w).line) :
    d ∈ w.claims ++ w.line ∧ d.same c = false := by
  have hd : d ∈ (dropClaims (fun d => d.same c) (releaseEntryOf c w)).claims ++
      (dropClaims (fun d => d.same c) (releaseEntryOf c w)).line := by
    cases hb : c.body with
    | leg g =>
      rw [withdrawClaim_leg hb] at h
      exact h
    | sectionOf g =>
      rw [withdrawClaim_section hb] at h
      exact h
  rw [dropClaims_all] at hd
  exact ⟨releaseEntryOf_sub c w d (List.mem_of_mem_filter hd), by simpa using List.of_mem_filter hd⟩

/-- Each of some claims withdrawn that is still there. -/
def withdrawEach (cs : List Claim) (w : Work) : Work :=
  cs.foldl (fun w c => if w.allClaims.any fun d => d.same c then withdrawClaim c w else w) w

theorem withdrawAll_eq (gone : Claim → Bool) (w : Work) : withdrawAll gone w = withdrawEach (w.allClaims.filter gone) w := rfl

theorem withdrawEach_sub (cs : List Claim) (v : Work) (d : Claim)
    (h : d ∈ (withdrawEach cs v).claims ++ (withdrawEach cs v).line) : d ∈ v.claims ++ v.line ∧ d ∉ cs := by
  induction cs generalizing v with
  | nil => exact ⟨h, List.not_mem_nil⟩
  | cons c cs ih =>
    obtain ⟨hin, hout⟩ := ih _ h
    beta_reduce at hin
    split at hin
    · obtain ⟨hv, hs⟩ := withdrawClaim_sub c v d hin
      refine ⟨hv, fun hm => (List.mem_cons.1 hm).elim (fun e => ?_) hout⟩
      rw [e, same_self] at hs
      cases hs
    · next hno =>
      refine ⟨hin, fun hm => (List.mem_cons.1 hm).elim (fun e => hno ?_) hout⟩
      exact List.any_eq_true.2 ⟨d, hin, e ▸ same_self d⟩

/-- Claims chosen to be withdrawn are gone, and no claim is new. -/
theorem withdrawAll_sub (gone : Claim → Bool) (w : Work) (d : Claim) (h : d ∈ (withdrawAll gone w).claims ++ (withdrawAll gone w).line) :
    d ∈ w.claims ++ w.line ∧ gone d = false := by
  rw [withdrawAll_eq] at h
  obtain ⟨hin, hout⟩ := withdrawEach_sub _ w d h
  exact ⟨hin, eq_false_of_ne_true fun hg => hout (List.mem_filter.2 ⟨hin, hg⟩)⟩

/-! ### Claims formed (R59, R89) -/

section
variable {e : Env} (hl : e.layout.legsAgree)
include hl

theorem legBetween_agrees {a b : ZoneId} {q : Leg} (h : legBetween e.layout a b = some q) : q.zones ≠ [] ∧ q.zones.Nodup := by
  unfold legBetween at h
  exact hl q (List.mem_of_find?_eq_some h)

theorem quiet_formClaim {t : TrainId} {b : StepId} {fs : List Frame} {o : Origin} {wait : Option Nat} {w v : Work}
    (h : formClaim e t b fs o wait w = .claim v) (ht : (w.trains[t]).live) : Quiet w.toTrack v.toTrack := by
  unfold formClaim at h
  split at h
  · cases h
  · split at h
    · cases h
    · split at h
      · cases h
      · split at h
        · split at h
          · next q hq =>
            cases h
            refine quiet_arriveClaim w _ _ fun g hg => ?_
            cases hg
            obtain ⟨hz, hn⟩ := legBetween_agrees hl hq
            exact ⟨hz, hn, ht⟩
          · cases h
        · cases h

theorem quiet_formOnward (t : TrainId) (b : StepId) (fs : List Frame) (w : Work) (ht : (w.trains[t]).live) :
    Quiet w.toTrack (formOnward e t b fs w).toTrack := by
  unfold formOnward
  split
  · next v h => exact quiet_formClaim hl h ht
  · exact .refl _
  · exact .refl _

theorem quiet_formAtRest (t : TrainId) (o : Origin) (wait : Option Nat) (w : Work) (ht : (w.trains[t]).live)
    (hf : ∃ z, (w.trains[t]).footprint = [z]) : Quiet w.toTrack (formAtRest e t o wait w).toTrack := by
  unfold formAtRest
  split
  · exact .refl _
  · split
    · next v h =>
      have hq := quiet_formClaim hl h ht
      exact hq.trans (quiet_modifyTrain v t _ rfl rfl
        (.inr ⟨hq.live ht, .inr (.inl rfl), fun _ => by rw [hq.footprint]; exact hf⟩))
    · exact quiet_modifyTrain w t (fun r => { r with state := .standing }.mapRide fun d => { d with atEnd := true }) rfl rfl
        (.inr ⟨ht, .inl rfl, fun _ => hf⟩)
    · exact .refl _

omit hl in
/-- A train's record changed in fields that the agreement does not read. -/
theorem quiet_modifyTrain_other (w : Work) (t : TrainId) (f : Train → Train) (hf : (f w.trains[t]).footprint = (w.trains[t]).footprint)
    (ha : (f w.trains[t]).authority = (w.trains[t]).authority) (hs : (f w.trains[t]).state = (w.trains[t]).state) :
    Quiet w.toTrack (w.modifyTrain t f).toTrack := quiet_modifyTrain w t f hf (by rw [ha]) (.inl hs)

theorem quiet_endDwell (t : TrainId) (w : Work) (ht : (w.trains[t]).live) (hf : ∃ z, (w.trains[t]).footprint = [z]) :
    Quiet w.toTrack (endDwell e t w).toTrack := by
  have hq := quiet_modifyTrain_other w t (fun r => { r with dwell := none }) rfl rfl rfl
  exact hq.trans (quiet_formAtRest hl t _ _ _ (hq.live ht) (by rw [hq.footprint]; exact hf))

theorem quiet_startDwell (t : TrainId) (n : Nat) (w : Work) (ht : (w.trains[t]).live) (hf : ∃ z, (w.trains[t]).footprint = [z]) :
    Quiet w.toTrack (startDwell e t n w).toTrack := by
  unfold startDwell
  split
  · exact quiet_endDwell hl t w ht hf
  · exact quiet_modifyTrain_other w t _ rfl rfl rfl

theorem quiet_actOnStep (t : TrainId) (w : Work) (ht : (w.trains[t]).live) (hf : ∃ z, (w.trains[t]).footprint = [z]) :
    Quiet w.toTrack (actOnStep e t w).toTrack := by
  unfold actOnStep
  split
  · exact quiet_formAtRest hl t _ _ w ht hf
  · exact quiet_startDwell hl t _ w ht hf
  · exact .refl _
  · split <;> exact .refl _
  · exact .refl _

end

/-! ### Grants of legs (R100) -/

theorem setZones_mode (w : Work) (zs : List ZoneId) (s : ZoneState) : (w.setZones zs s).mode = w.mode :=
  (congrArg (fun v : Work => v.mode) (setZones_frame w zs s) :)

theorem setZones_sections (w : Work) (zs : List ZoneId) (s : ZoneState) : (w.setZones zs s).sections = w.sections :=
  (congrArg (fun v : Work => v.sections) (setZones_frame w zs s) :)

theorem appendLeg_tidy {Z : List ZoneId} {x : Option PortId} {c : Bool} {g : LegClaim} {w : Work} (h : w.Tidy Z x c)
    (hz : ∀ z ∈ g.zones, w.zoneState z = some .clear) (hne : g.zones ≠ []) (hnd : g.zones.Nodup) (hlive : (w.trains[g.train]).live) :
    (appendLeg g w).Tidy Z x c := by
  obtain ⟨hfp, hah, hgs, -, -, hre⟩ := h.lists g.train
  have hstate : ∀ z, (appendLeg g w).zoneState z = if z ∈ g.zones then some (.reserved g.train) else w.zoneState z := fun z => by
    refine (setZones_zoneState w g.zones z (.reserved g.train)).trans ?_
    split
    · next hm => rw [hz z hm]; rfl
    · rfl
  have hkeep : ∀ z s, s ≠ .clear → s ≠ .reserved g.train → ((appendLeg g w).zoneState z = some s ↔ w.zoneState z = some s) := by
    intro z s hc hr
    rw [hstate]
    split
    · next hm =>
      rw [hz z hm]
      exact ⟨fun e => absurd (Option.some.inj e).symm hr, fun e => absurd (Option.some.inj e).symm hc⟩
    · exact Iff.rfl
  have hself : (appendLeg g w).trains[g.train] = { w.trains[g.train] with authority := (w.trains[g.train]).authority ++
      [{ start := g.start, zones := g.zones, started := false, reqs := g.reqs, target := g.decision.target
         decision := some g.decision, origin := g.origin, onward := false }] } := by
    unfold appendLeg
    rw [modifyTrain_self, setZones_trains]
  have hahead : ((appendLeg g w).trains[g.train]).ahead = (w.trains[g.train]).ahead ++ g.zones := by
    rw [hself]
    unfold Train.ahead
    rw [List.flatMap_append]
    simp
  refine Retrained.tidy (t := g.train)
    { mode := setZones_mode w g.zones (.reserved g.train), others := fun u hu => ?_
      reserved := fun z u hu => hkeep z _ (by simp) (by simpa using hu), occupied := fun z u _ => hkeep z _ (by simp) (by simp)
      handed := fun z p => (hkeep z _ (by simp) (by simp)).2, ahead := fun z hm => ?_, footprint := fun z hm => ?_
      reservedBy := fun z hm hr => ?_, occupiedBy := fun z hm hr => ?_, lists := ?_, claims := fun y q hy hq => ?_
      sections := fun p y hy => ?_, absent := fun hc => ?_ } h
  · unfold appendLeg
    rw [modifyTrain_other _ _ hu, setZones_trains]
  · rw [hahead] at hm
    rw [hstate]
    split
    · rfl
    · next hn => exact h.ahead z _ ((List.mem_append.1 hm).resolve_right hn)
  · rw [hself] at hm
    exact (hkeep z _ (by simp) (by simp)).2 (h.footprint z _ hm)
  · rw [hahead]
    rw [hstate] at hr
    split at hr
    · next hg => exact List.mem_append_right _ hg
    · exact List.mem_append_left _ (h.reserved z _ hm hr)
  · rw [hself]
    exact h.occupied z _ hm ((hkeep z _ (by simp) (by simp)).1 hr)
  · refine listsAgree_of_live ?_ ?_ ?_ ?_ ?_
    · rw [hself]; exact hlive
    · rw [hself]; exact hfp
    · rw [hahead]
      refine List.nodup_append'.2 ⟨hah, hnd, fun z ha hg => ?_⟩
      have hr := h.ahead z _ ha
      rw [hz z hg] at hr
      simp at hr
    · rw [hself]
      intro q hq
      rcases List.mem_append.1 hq with hq | hq
      · exact hgs q hq
      · rw [List.mem_singleton.1 hq]
        exact hne
    · rw [hself]
      exact hre
  · have hc : y ∈ w.claims ++ w.line := by
      unfold appendLeg at hy
      rwa [Work.modifyTrain_claims, Work.modifyTrain_line, setZones_claims, setZones_line] at hy
    refine .inl ⟨⟨y, hc, rfl⟩, fun _ => ?_⟩
    rw [hself]
    exact hlive
  · have hs : (appendLeg g w).sections = w.sections := setZones_sections w g.zones (.reserved g.train)
    rwa [hs] at hy
  · exact absurd (h.absent hc g.train) (live_ne hlive).1

end Sys2Proof.Machine
end

section
/-! SUPPORT. The arbiter and what closes an event keep zone states, footprints and authorities in agreement: the grants of legs and of
sections, the evaluation, trains coming to rest and moves that arrive (R63, R64, R97 to R105, R129, R140, R141). -/

namespace Sys2Proof.Machine

/-! ### Grants of legs (R100) -/

section
variable (w : Work)

theorem quiet_raiseBypass (i : Nat) (c : Claim) : Quiet w.toTrack (raiseBypass i c w).toTrack := by
  refine .of_same rfl rfl rfl rfl fun d g hd _ => .inl ?_
  rcases List.mem_append.1 hd with hd | hd
  · rcases List.mem_append.1 hd with hd | hd
    · obtain ⟨b, hb, rfl⟩ := List.mem_map.1 hd
      refine ⟨b, List.mem_append_left _ (List.mem_of_mem_take hb), ?_⟩
      split <;> rfl
    · exact ⟨d, List.mem_append_left _ (List.mem_of_mem_drop hd), rfl⟩
  · exact ⟨d, List.mem_append_right _ hd, rfl⟩

theorem quiet_settleOrWait (c : Claim) (ns : List SwitchId) : Quiet w.toTrack (settleOrWait c ns w).toTrack := by
  unfold settleOrWait
  split
  · exact quiet_dropClaims w _
  · refine quiet_mapClaims w _ fun d => ?_
    split <;> rfl

theorem quiet_postGrant (g : LegClaim) : Quiet w.toTrack (postGrant g w).toTrack := by
  unfold postGrant
  dsimp only
  cases g.origin <;> exact .refl _

theorem quiet_noteOnward (t : TrainId) : Quiet w.toTrack (w.modifyTrain t noteOnward).toTrack := by
  refine quiet_modifyTrain w t noteOnward rfl ?_ (.inl rfl)
  unfold noteOnward
  rw [List.map_map]
  rfl

theorem quiet_onwardAtGrant {e : Env} (hl : e.layout.legsAgree) (g : LegClaim) (ht : (w.trains[g.train]).live) :
    Quiet w.toTrack (onwardAtGrant e g w).toTrack := by
  unfold onwardAtGrant
  split
  · split
    · split
      · next v hv => exact (quiet_formClaim hl hv ht).trans (quiet_noteOnward v _)
      · exact .refl _
      · exact .refl _
    · exact .refl _
  · exact .refl _

end

theorem legGrantable_clear {e : Env} {w : Track} {g : LegClaim} (h : legGrantable e w g = true) :
    ∀ z ∈ g.zones, w.zoneState z = some .clear := by
  simp only [legGrantable, Bool.and_eq_true, List.all_eq_true, decide_eq_true_eq] at h
  obtain ⟨⟨-, hz⟩, -⟩ := h
  exact hz

theorem grantLeg_tidy {e : Env} (hl : e.layout.legsAgree) {x : Option PortId} {b : Bool} {i : Nat} {c : Claim} {g : LegClaim} {w : Work}
    (h : w.Tidy [] x b) (hc : c ∈ w.claims) (hb : c.body = .leg g) (hg : legGrantable e w.toTrack g = true) :
    (grantLeg e i c g w).Tidy [] x b := by
  obtain ⟨hne, hnd, hlive⟩ := h.claims c g (List.mem_append_left _ hc) hb
  have happ := appendLeg_tidy h (legGrantable_clear hg) hne hnd hlive
  have hlive' : ((appendLeg g w).trains[g.train]).live := by
    unfold appendLeg
    rw [modifyTrain_self, setZones_trains]
    exact hlive
  have hmoves : Quiet (appendLeg g w).toTrack (applyRelease e (settleOrWait c ((unsettled (raiseBypass i c (appendLeg g w)).toTrack g).map
      (·.switch)) ((unsettled (raiseBypass i c (appendLeg g w)).toTrack g).foldl
        (fun w q => startMove e q.switch q.position (.claim c.seq) w) (raiseBypass i c (appendLeg g w))))).toTrack :=
    (((quiet_raiseBypass _ i c).trans (Quiet.foldl (fun v q => quiet_startMove v e _ _ _) _ _)).trans
      (quiet_settleOrWait _ c _)).trans (quiet_applyRelease _ e)
  exact ((hmoves.trans (quiet_onwardAtGrant _ hl g (hmoves.live hlive'))).trans (quiet_postGrant _ g)).tidy happ

/-! ### Grants of sections (R104, R105) -/

/-- A section record changes: the zones of the section it holds are HANDED to the port. -/
theorem setSection_tidy {Z : List ZoneId} {c : Bool} {p : PortId} {s : Section} {w : Work} (h : w.Tidy Z (some p) c)
    (hs : ∀ y, s = .held y → c = true ∧ ∀ z ∈ y.zones, w.zoneState z = some (.handed p)) : (w.setSection p s).Tidy Z none c := by
  have hget : ∀ q : PortId, (w.setSection p s).sections[q] = if p = q then s else w.sections[q] := fun q => vector_get_set _ _ _ _
  refine
    { ahead := h.ahead, footprint := h.footprint, reserved := h.reserved, occupied := h.occupied, lists := h.lists, claims := h.claims
      sections := fun q y _ hy => ?_, modes := h.modes, absent := h.absent, unheld := fun hc q y hy => ?_ }
  · rw [hget] at hy
    split at hy
    · next e =>
      subst e
      exact (hs y hy).2
    · next hn => exact h.sections q y (fun e => hn (Option.some.inj e).symm) hy
  · rw [hget] at hy
    split at hy
    · rw [(hs y hy).1] at hc
      cases hc
    · exact h.unheld hc q y hy

/-- The agreement without the section record of one port. -/
theorem Track.Tidy.except {Z : List ZoneId} {c : Bool} {w : Track} (h : w.Tidy Z none c) (x : Option PortId) : w.Tidy Z x c :=
  { h with sections := fun p y _ => h.sections p y (by simp) }

/-- The agreement with more zones on their way. -/
theorem Track.Tidy.moving {Z : List ZoneId} {x : Option PortId} {c : Bool} {w : Track} (h : w.Tidy [] x c) : w.Tidy Z x c :=
  { h with
    reserved := fun z t _ => h.reserved z t List.not_mem_nil
    occupied := fun z t _ => h.occupied z t List.not_mem_nil }

/-- Zones that nobody has any more are given a state that says so. -/
theorem setZones_tidy {Z zs : List ZoneId} {x : Option PortId} {c : Bool} {s : ZoneState} {w : Work} (h : w.Tidy Z x c)
    (hsub : ∀ z ∈ Z, z ∈ zs) (hs : ∀ t, s ≠ .reserved t ∧ s ≠ .occupied t) (ha : ∀ (z : ZoneId) (t : TrainId), z ∈ zs → w.zoneState z ≠ some (.reserved t))
    (hf : ∀ (z : ZoneId) (t : TrainId), z ∈ zs → z ∉ (w.trains[t]).footprint)
    (hsec : ∀ (p : PortId) (y : HeldSection), some p ≠ x → w.sections[p] = .held y → ∀ z ∈ y.zones, z ∉ zs) :
    (w.setZones zs s).Tidy [] x c := by
  have hout : ∀ z, z ∉ zs → (w.setZones zs s).zoneState z = w.zoneState z := fun z hz => by
    rw [setZones_zoneState, if_neg hz]
  have hin : ∀ z s', s' ≠ s → (w.setZones zs s).zoneState z = some s' → z ∉ zs ∧ w.zoneState z = some s' := fun z s' hne hz => by
    by_cases hm : z ∈ zs
    · rw [setZones_zoneState, if_pos hm] at hz
      obtain ⟨u, -, hu⟩ := Option.map_eq_some_iff.1 hz
      exact absurd hu.symm hne
    · exact ⟨hm, hout z hm ▸ hz⟩
  refine
    { ahead := fun z t hz => ?_, footprint := fun z t hz => ?_, reserved := fun z t _ hz => ?_, occupied := fun z t _ hz => ?_
      lists := fun t => ?_, claims := fun y g hy hg => ?_, sections := fun p y hp hy z hz => ?_, modes := ?_, absent := fun hc t => ?_
      unheld := fun hc p y hy => ?_ }
  · rw [setZones_trains] at hz
    have hr := h.ahead z t hz
    rw [hout z fun hm => ha z t hm hr]
    exact hr
  · rw [setZones_trains] at hz
    rw [hout z fun hm => hf z t hm hz]
    exact h.footprint z t hz
  · obtain ⟨hm, hr⟩ := hin z _ (hs t).1.symm hz
    rw [setZones_trains]
    exact h.reserved z t (fun hZ => hm (hsub z hZ)) hr
  · obtain ⟨hm, hr⟩ := hin z _ (hs t).2.symm hz
    rw [setZones_trains]
    exact h.occupied z t (fun hZ => hm (hsub z hZ)) hr
  · rw [setZones_trains]
    exact h.lists t
  · rw [setZones_claims, setZones_line] at hy
    rw [setZones_trains]
    exact h.claims y g hy hg
  · rw [setZones_sections] at hy
    rw [hout z (hsec p y hp hy z hz)]
    exact h.sections p y hp hy z hz
  · rw [setZones_mode]
    exact h.modes
  · rw [setZones_trains]
    exact h.absent hc t
  · rw [setZones_sections] at hy
    exact h.unheld hc p y hy

/-- Some trains have lost their footprints; zones keep their holders but for RESERVED ones given up. -/
structure Emptied (ts : List TrainId) (a b : Track) : Prop where
  gone : ∀ t : TrainId, t ∈ ts → (b.trains[t]).footprint = []
  others : ∀ t : TrainId, t ∉ ts → (b.trains[t]).footprint = (a.trains[t]).footprint
  reserved : ∀ (z : ZoneId) (t : TrainId), b.zoneState z = some (.reserved t) → a.zoneState z = some (.reserved t)
  occupied : ∀ (z : ZoneId) (t : TrainId), b.zoneState z = some (.occupied t) ↔ a.zoneState z = some (.occupied t)
  handed : ∀ (z : ZoneId) (p : PortId), b.zoneState z = some (.handed p) ↔ a.zoneState z = some (.handed p)
  defined : ∀ z : ZoneId, a.zoneState z ≠ none → b.zoneState z ≠ none

theorem Emptied.nil (a : Track) : Emptied [] a a :=
  ⟨fun _ h => absurd h List.not_mem_nil, fun _ _ => rfl, fun _ _ => id, fun _ _ => .rfl, fun _ _ => .rfl, fun _ => id⟩

theorem Emptied.trans {ts us : List TrainId} {a b c : Track} (h : Emptied ts a b) (k : Emptied us b c) : Emptied (ts ++ us) a c where
  gone t ht := by
    by_cases hu : t ∈ us
    · exact k.gone t hu
    · rw [k.others t hu]
      exact h.gone t ((List.mem_append.1 ht).resolve_right hu)
  others t ht := by
    rw [List.mem_append, not_or] at ht
    rw [k.others t ht.2, h.others t ht.1]
  reserved z t hz := h.reserved z t (k.reserved z t hz)
  occupied z t := (k.occupied z t).trans (h.occupied z t)
  handed z p := (k.handed z p).trans (h.handed z p)
  defined z hz := k.defined z (h.defined z hz)

theorem isLegOf_leg {c : Claim} {g : LegClaim} (h : c.body = .leg g) : c.isLegOf g.train = true := by
  unfold Claim.isLegOf Claim.legOf
  rw [h]
  simp

/-- A train whose claims and entries are gone gives up its zones, which are on their way to another holder. -/
theorem emptied_modifyTrain {Z : List ZoneId} {x : Option PortId} {w : Work} {t : TrainId} {f : Train → Train}
    (hf : (f w.trains[t]).footprint = []) (ha : (f w.trains[t]).authority = []) (hr : (f w.trains[t]).atRest = false)
    (h : w.Tidy Z x true) (hz : ∀ z ∈ (w.trains[t]).footprint, z ∈ Z) (hn : (w.trains[t]).authority = [])
    (hc : ∀ d ∈ w.claims ++ w.line, d.isLegOf t = false) :
    (w.modifyTrain t f).Tidy Z x true ∧ Emptied [t] w.toTrack (w.modifyTrain t f).toTrack := by
  have hself : (w.modifyTrain t f).trains[t] = f w.trains[t] := modifyTrain_self w t f
  have hah : ∀ r : Train, r.authority = [] → r.ahead = [] := fun r hr => by unfold Train.ahead; rw [hr]; rfl
  refine ⟨Retrained.tidy (t := t) (a := w.toTrack)
    { mode := rfl, others := fun u hu => modifyTrain_other w f hu, reserved := fun _ _ _ => .rfl, occupied := fun _ _ _ => .rfl
      handed := fun _ _ => id, ahead := fun z hm => ?_, footprint := fun z hm => ?_, reservedBy := fun z hm hz' => ?_
      occupiedBy := fun z hm hz' => ?_, lists := ?_, claims := fun y g hy hg => .inl ⟨⟨y, hy, rfl⟩, fun e => ?_⟩
      sections := fun _ _ => id, absent := nofun } h, ⟨fun u hu => ?_, fun u hu => ?_, fun _ _ => id, fun _ _ => .rfl, fun _ _ => .rfl, fun _ => id⟩⟩
  · rw [hself, hah _ ha] at hm
    exact absurd hm List.not_mem_nil
  · rw [hself, hf] at hm
    exact absurd hm List.not_mem_nil
  · have hm' := h.reserved z t hm hz'
    rw [hah _ hn] at hm'
    exact absurd hm' List.not_mem_nil
  · exact absurd (hz z (h.occupied z t hm hz')) hm
  · rw [hself]
    exact listsAgree_of_none hf ha hr
  · have hd := hc y hy
    rw [← e, isLegOf_leg hg] at hd
    cases hd
  · rw [List.mem_singleton.1 hu, hself, hf]
  · rw [modifyTrain_other w f fun e => hu (List.mem_singleton.2 e)]

theorem makeManual_tidy {Z : List ZoneId} {x : Option PortId} (p : PortId) (t : TrainId) {w : Work} (h : w.Tidy Z x true)
    (hz : ∀ z ∈ (w.trains[t]).footprint, z ∈ Z) :
    (makeManual p t w).Tidy Z x true ∧ Emptied [t] w.toTrack (makeManual p t w).toTrack := by
  have h1 := calm_withdrawAll (fun c => c.isLegOf t) w
  have h2 := h1.trans (quiet_postAbort (withdrawAll (fun c => c.isLegOf t) w) t (progressOrigin w.toTrack t) .handover).calm
  have h3 := h2.trans (calm_removeEntries t 0 _)
  have hclaims : ∀ d ∈ (removeEntries t 0 (postAbort t (progressOrigin w.toTrack t) .handover (withdrawAll (fun c => c.isLegOf t) w))).claims ++
      (removeEntries t 0 (postAbort t (progressOrigin w.toTrack t) .handover (withdrawAll (fun c => c.isLegOf t) w))).line,
      d.isLegOf t = false := fun d hd => by
    have hd' := removeEntries_sub _ _ _ d hd
    have hp : ∀ o y (v : Work), (postAbort t o y v).claims = v.claims ∧ (postAbort t o y v).line = v.line := fun o y v => by
      unfold postAbort
      split <;> exact ⟨rfl, rfl⟩
    rw [(hp _ _ _).1, (hp _ _ _).2] at hd'
    exact (withdrawAll_sub _ w d hd').2
  unfold makeManual
  obtain ⟨hA, hB⟩ := emptied_modifyTrain (t := t) (f := fun r => { r.dropTimers with state := .manual, footprint := [], sectionPort := some p })
    rfl (by rw [removeEntries_self]; rfl) rfl (h3.tidy h) (by rw [h3.footprint]; exact hz) (by rw [removeEntries_self]; rfl) hclaims
  refine ⟨hA, Emptied.trans (ts := []) ⟨fun _ hm => absurd hm List.not_mem_nil, fun u _ => h3.footprint u, fun _ _ => h3.reserved,
    h3.occupied, h3.handed, fun _ => h3.defined⟩ hB⟩

theorem makeManuals_tidy {Z : List ZoneId} {x : Option PortId} (p : PortId) (ts : List TrainId) {w : Work} (h : w.Tidy Z x true)
    (hz : ∀ t ∈ ts, ∀ z ∈ (w.trains[t]).footprint, z ∈ Z) :
    (ts.foldl (fun w t => makeManual p t w) w).Tidy Z x true ∧ Emptied ts w.toTrack (ts.foldl (fun w t => makeManual p t w) w).toTrack := by
  induction ts generalizing w with
  | nil => exact ⟨h, .nil _⟩
  | cons t ts ih =>
    obtain ⟨h1, he⟩ := makeManual_tidy p t h (hz t (List.mem_cons_self ..))
    obtain ⟨h2, hr⟩ := ih h1 fun u hu z hm => by
      by_cases e : u ∈ [t]
      · rw [he.gone u e] at hm
        exact absurd hm List.not_mem_nil
      · rw [he.others u e] at hm
        exact hz u (List.mem_cons_of_mem _ hu) z hm
    exact ⟨h2, he.trans hr⟩

theorem mem_trainsIn {w : Track} {zs : List ZoneId} {t : TrainId} :
    t ∈ trainsIn w zs ↔ ∃ z ∈ zs, w.zoneState z = some (.occupied t) := by
  unfold trainsIn
  rw [List.mem_filter, List.any_eq_true]
  simp only [decide_eq_true_eq]
  exact ⟨fun h => h.2, fun h => ⟨List.mem_finRange t, h⟩⟩

theorem handable_occupied {w : Track} {z : ZoneId} {t : TrainId} (h : handable w z = true) (ho : w.zoneState z = some (.occupied t)) :
    (w.trains[t]).atRest = true := by
  unfold handable at h
  rw [ho] at h
  unfold Train.atRest
  cases hs : (w.trains[t]).state <;> rw [Fin.getElem_fin] at hs <;> simp [hs] at h ⊢

theorem handable_free {w : Track} {z : ZoneId} (h : handable w z = true) :
    w.zoneState z ≠ none ∧ (∀ t, w.zoneState z ≠ some (.reserved t)) ∧ ∀ p, w.zoneState z ≠ some (.handed p) := by
  refine ⟨fun hn => ?_, fun t hn => ?_, fun p hn => ?_⟩ <;> (unfold handable at h; rw [hn] at h; cases h)

theorem sectionGrantable_iff {w : Track} {g : SectionClaim} (h : sectionGrantable w g = true) :
    sectionMode w.mode = true ∧ ∀ z ∈ g.zones, handable w z = true := by
  simp only [sectionGrantable, Bool.and_eq_true, List.all_eq_true] at h
  obtain ⟨⟨hm, hz⟩, -⟩ := h
  exact ⟨hm, hz⟩

/-- In a mode in which sections are granted the layout is committed. -/
theorem Track.Tidy.committed_of_sectionMode {Z : List ZoneId} {x : Option PortId} {c : Bool} {w : Track} (h : w.Tidy Z x c)
    (hm : sectionMode w.mode = true) : c = true := by
  cases c with
  | true => rfl
  | false =>
    rcases h.modes.1 rfl with hu | hu <;> rw [hu] at hm <;> cases hm

theorem grantSection_tidy {e : Env} {b : Bool} {i : Nat} {c : Claim} {g : SectionClaim} {w : Work} (h : w.Tidy [] none b)
    (hg : sectionGrantable w.toTrack g = true) : (grantSection e i c g w).Tidy [] none b := by
  obtain ⟨hm, hh⟩ := sectionGrantable_iff hg
  obtain rfl := h.committed_of_sectionMode hm
  have hq := quiet_raiseBypass w i c
  have h1 := hq.tidy h
  have hz1 : ∀ z ∈ g.zones, handable (raiseBypass i c w).toTrack z = true := hh
  have htrains : ∀ t ∈ trainsIn (raiseBypass i c w).toTrack g.zones, ∀ z ∈ ((raiseBypass i c w).trains[t]).footprint, z ∈ g.zones := by
    intro t ht z hz
    obtain ⟨y, hy, ho⟩ := mem_trainsIn.1 ht
    obtain ⟨-, -, -, -, -, hrest⟩ := h1.lists t
    obtain ⟨a, ha⟩ := hrest (handable_occupied (hz1 y hy) ho)
    have hya := h1.occupied y t List.not_mem_nil ho
    rw [ha, List.mem_singleton] at hya hz
    rw [hz, ← hya]
    exact hy
  obtain ⟨h2, he⟩ := makeManuals_tidy g.port _ (h1.moving (Z := g.zones)) htrains
  have h3 := setZones_tidy (zs := g.zones) (s := .handed g.port) h2 (fun _ => id) (fun _ => ⟨nofun, nofun⟩)
    (fun z t hz hr => (handable_free (hz1 z hz)).2.1 t (he.reserved z t hr))
    (fun z t hz hm => by
      have ho := (he.occupied z t).1 (h2.footprint z t hm)
      rw [he.gone t (mem_trainsIn.2 ⟨z, hz, ho⟩)] at hm
      exact List.not_mem_nil hm)
    (fun p y hp hy z hz hm => (handable_free (hz1 z hm)).2.2 p ((he.handed z p).1 (h2.sections p y hp hy z hz)))
  have hrest : ∀ v : Work, Quiet v.toTrack (dropClaims (fun d => d.same c)
      (g.switches.foldl (fun w n => w.modifySwitch n fun s => { s with sectionPort := some g.port }) v)).toTrack := fun v =>
    (Quiet.foldl (fun v n => quiet_modifySwitch v n _) g.switches v).trans (quiet_dropClaims _ _)
  refine (quiet_applyRelease _ e).tidy ((quiet_post _ _ _ _ _ _).tidy (setSection_tidy (((hrest _).tidy h3).except _) fun y hy => ⟨rfl, ?_⟩))
  cases hy
  intro z hz
  refine ((hrest _).handed z _).2 ?_
  rw [setZones_zoneState, if_pos hz]
  have hd := he.defined z (handable_free (hz1 z hz)).1
  obtain ⟨s, hs⟩ := Option.ne_none_iff_exists'.1 hd
  rw [hs]
  rfl

/-! ### The evaluation (R97, R98, R141) -/

section
variable {e : Env} (hl : e.layout.legsAgree)
include hl

theorem grant_tidy {b : Bool} {i : Nat} {c : Claim} {w : Work} (h : w.Tidy [] none b) (hc : c ∈ w.claims)
    (hg : grantable e w.toTrack i c = true) : (grant e i c w).Tidy [] none b := by
  unfold grantable at hg
  unfold grant
  cases hb : c.body with
  | leg g =>
    rw [hb] at hg
    simp only [Bool.and_eq_true] at hg
    exact grantLeg_tidy hl h hc hb hg.1.2
  | sectionOf g =>
    rw [hb] at hg
    simp only [Bool.and_eq_true] at hg
    exact grantSection_tidy h hg.1.2

theorem scanClaims_tidy {b : Bool} (fuel i : Nat) (g : Bool) {w : Work} (h : w.Tidy [] none b) :
    (scanClaims e fuel i g w).Tidy [] none b := by
  induction fuel generalizing i g w with
  | zero => exact h
  | succ fuel ih =>
    unfold scanClaims
    split
    · split
      · exact ih _ _ h
      · exact h
    · next c hc =>
      split
      · next hg => exact ih _ _ (grant_tidy hl h (List.mem_of_getElem? hc) hg)
      · exact ih _ _ h

omit hl in
theorem quiet_judgeYieldOf (p : PortId) (w : Work) : Quiet w.toTrack (judgeYieldOf p w).toTrack := by
  unfold judgeYieldOf
  split
  · exact .refl _
  · next y hy =>
    have hs : ∀ u : Bool, Quiet w.toTrack (w.setSection p (.held { y with yield := u })).toTrack := fun u =>
      quiet_setSection w p _ fun v hv => ⟨y, (heldSection_iff _ _ _).1 hy, by cases hv; rfl⟩
    split
    · exact hs false
    · split
      · exact .refl _
      · exact (hs true).trans (quiet_post _ _ _ _ _ _)

theorem evaluate_tidy {b : Bool} {w : Work} (h : w.Tidy [] none b) : (evaluate e w).Tidy [] none b := by
  unfold evaluate judgeYield
  exact (Quiet.foldl (fun v p => quiet_judgeYieldOf p v) _ _).tidy (scanClaims_tidy hl _ _ _ h)

/-! ### Trains coming to rest, and what closes an event (R29, R63, R64, R97, R129) -/

omit hl in
theorem calm_rested {t : TrainId} {z : ZoneId} {w : Work} (h : restsAt e w.toTrack t z) : Calm w.toTrack (rested e t z w).toTrack := by
  obtain ⟨hf, -, -, hs⟩ := h
  have hlive : (w.trains[t]).live := .inr (.inr (.inr hs))
  have hstand : Quiet w.toTrack (w.setTrain t { w.trains[t] with state := .standing, travel := none }).toTrack :=
    quiet_modifyTrain w t (fun r => { r with state := .standing, travel := none }) rfl rfl (.inr ⟨hlive, .inl rfl, fun _ => ⟨z, hf⟩⟩)
  unfold rested
  refine Calm.trans ?_ (calm_withdrawAll _ _)
  split
  · exact hstand.calm.trans (calm_removeEntries _ _ _)
  · exact hstand.calm

theorem calm_restTrain (t : TrainId) (w : Work) : Calm w.toTrack (restTrain e t w).toTrack := by
  by_cases h : ∃ z, restsAt e w.toTrack t z
  · obtain ⟨z, hz⟩ := h
    have hr := calm_rested hz
    obtain ⟨hf, -, -, hs⟩ := id hz
    have hlive : ((rested e t z w).trains[t]).live := hr.live (.inr (.inr (.inr hs)))
    have hone : ∃ y, ((rested e t z w).trains[t]).footprint = [y] := ⟨z, (hr.footprint t).trans hf⟩
    have hact := hr.trans (quiet_actOnStep hl t (rested e t z w) hlive hone).calm
    rw [restTrain_rests hz]
    split
    · split
      · exact hr.trans (quiet_modifyTrain (rested e t z w) t (fun r => { r with state := .claiming }) rfl rfl
          (.inr ⟨hlive, .inr (.inl rfl), fun _ => hone⟩)).calm
      · exact hact
    · exact hact
  · rw [restTrain_other h]
    exact .refl _

theorem conclude_tidy {b : Bool} {w : Work} (h : w.Tidy [] none b) : (conclude e w).Tidy [] none b := by
  unfold conclude restTrains
  refine evaluate_tidy hl ((quiet_applyRelease _ e).tidy ?_)
  exact (Calm.foldl (fun v t => calm_restTrain hl t v) _ _).tidy ((quiet_applyRelease w e).tidy h)

omit hl in
theorem quiet_arriveFor (n : SwitchId) (s : Served) (w : Work) : Quiet w.toTrack (arriveFor n s w).toTrack := by
  unfold arriveFor
  split
  · exact .refl _
  · split
    · exact .refl _
    · split
      · exact quiet_dropClaims w _
      · refine quiet_mapClaims w _ fun d => ?_
        split <;> rfl

omit hl in
theorem quiet_arrive (n : SwitchId) (w : Work) : Quiet w.toTrack (arrive n w).toTrack := by
  unfold arrive
  split
  · exact ((quiet_modifySwitch w n _).trans (quiet_post _ _ _ _ _ _)).trans (quiet_arriveFor _ _ _)
  · exact .refl _

theorem arrivals_tidy {b : Bool} (k : Nat) {w : Work} (h : w.Tidy [] none b) : (arrivals e k w).Tidy [] none b := by
  induction k generalizing w with
  | zero => exact h
  | succ k ih =>
    unfold arrivals
    split
    · exact h
    · exact ih (conclude_tidy hl ((quiet_arrive _ w).tidy h))

theorem closeEvent_tidy {b : Bool} {w : Work} (h : w.Tidy [] none b) : (closeEvent e w).Tidy [] none b :=
  arrivals_tidy hl 4 (conclude_tidy hl h)

theorem closeEval_tidy {b : Bool} {w : Work} (h : w.Tidy [] none b) : (closeEval e w).Tidy [] none b :=
  arrivals_tidy hl 4 (evaluate_tidy hl h)

end

end Sys2Proof.Machine
end

section
/-! SUPPORT. Modes, halts, losses, faults, passages and moves keep zone states, footprints and authorities in agreement (R22, R47 to
R52, R55, R61, R62, R66 to R68, R102, R120, R121, R129 to R134, R148, R151 to R158). -/

namespace Sys2Proof.Machine

/-! ### Modes and ride halts (R148, R151 to R158) -/

theorem Track.Tidy.withMode {Z : List ZoneId} {x : Option PortId} {c : Bool} {w : Work} {m : Mode} (h : w.Tidy Z x c)
    (hm : (c = false → m = .unconfigured ∨ m = .estopped) ∧ (m = .unconfigured → c = false)) :
    ({ w with mode := m } : Work).Tidy Z x c :=
  { ahead := h.ahead, footprint := h.footprint, reserved := h.reserved, occupied := h.occupied, lists := h.lists, claims := h.claims
    sections := h.sections, modes := hm, absent := h.absent, unheld := h.unheld }

/-- In a mode of a committed layout it is committed. -/
theorem Track.Tidy.committed_of_mode {Z : List ZoneId} {x : Option PortId} {c : Bool} {w : Track} (h : w.Tidy Z x c)
    (hu : w.mode ≠ .unconfigured) (he : w.mode ≠ .estopped) : c = true := by
  cases c with
  | true => rfl
  | false => exact absurd (h.modes.1 rfl) (by simp [hu, he])

theorem quiet_postMode (w : Work) (m : Mode) (c : ModeCause) : Quiet w.toTrack (postMode m c w).toTrack := .refl _

theorem mapRide_authority (r : Train) (f : Ride → Ride) : (r.mapRide f).authority = r.authority := rfl

/-- A train in one zone that is CLEARED becomes STANDING. -/
theorem quiet_stand {w : Work} {t : TrainId} {f : Train → Train} (hl : (w.trains[t]).live) (hz : ∃ z, (w.trains[t]).footprint = [z])
    (hs : (f w.trains[t]).state = .standing) (hf : (f w.trains[t]).footprint = (w.trains[t]).footprint)
    (ha : (f w.trains[t]).authority = (w.trains[t]).authority) : Quiet w.toTrack (w.modifyTrain t f).toTrack :=
  quiet_modifyTrain w t f hf (by rw [ha]) (.inr ⟨hl, .inl hs, fun _ => hz⟩)

theorem calm_haltResting (t : TrainId) (w : Work) : Calm w.toTrack (haltResting t w).toTrack := by
  have hdrop : ∀ z, Calm w.toTrack (dropClaims (fun c => c.isLegOf t && !c.startsAt t z) (removeEntries t 0 w)).toTrack := fun z =>
    (calm_removeEntries t 0 w).trans (quiet_dropClaims _ _).calm
  unfold haltResting
  dsimp only
  split
  · next z _ hr hs =>
    have hc := hdrop z
    have hlive : (w.trains[t]).live := .inr (.inr (.inl hs))
    exact (hc.trans (quiet_stand (f := fun r => { (r.mapRide fun d => { d with stalled := false }) with state := .standing, departure := none })
      (hc.live hlive) ⟨z, (hc.footprint t).trans (rest_some.1 hr)⟩ rfl rfl rfl).calm).trans (quiet_postAbort _ _ _ _).calm
  · exact hdrop _
  · exact hdrop _
  · exact .refl _

theorem quiet_haltRunning (w : Work) : Quiet w.toTrack (haltRunning w).toTrack := by
  refine
    { mode := rfl, zones := fun _ => rfl, footprint := fun t => ?_, authority := fun t => ?_, state := fun t => ?_
      claims := claimsFrom_same rfl rfl, sections := fun _ h hh => ⟨h, hh, rfl⟩ }
  · rw [haltRunning_train]
    split <;> rfl
  · rw [haltRunning_train]
    split <;> rfl
  · rw [haltRunning_train]
    split
    · next hs => exact .inr ⟨.inr (.inr (.inr (.inl hs))), .inr (.inr (.inr (.inr rfl))), nofun⟩
    · exact .inl rfl

section
variable {Z : List ZoneId} {x : Option PortId} {c : Bool} {w : Work}

theorem rideHalt_tidy (e : Env) {m : Mode} (h : w.Tidy Z x c)
    (hm : (c = false → m = .unconfigured ∨ m = .estopped) ∧ (m = .unconfigured → c = false)) : (rideHalt e m w).Tidy Z x c := by
  unfold rideHalt
  exact (quiet_applyRelease _ e).tidy ((quiet_haltRunning _).tidy ((Calm.foldl (fun v t => calm_haltResting t v) _ _).tidy
    ((calm_returnAll _).tidy (h.withMode hm))))

theorem respondHalt_tidy (e : Env) (n : NoticeName) (h : w.Tidy Z x c) : (respondHalt e n w).Tidy Z x c := by
  have hgo : w.mode ≠ .unconfigured → w.mode ≠ .estopped → (postMode w.mode (.fault n) (rideHalt e .halted w)).Tidy Z x c :=
    fun hu he => by
      obtain rfl := h.committed_of_mode hu he
      exact (quiet_postMode _ _ _).tidy (rideHalt_tidy e h ⟨nofun, nofun⟩)
  unfold respondHalt
  split
  · next hm => exact hgo (by simp [hm]) (by simp [hm])
  · next hm => exact hgo (by simp [hm]) (by simp [hm])
  all_goals exact h

theorem raiseHalt_tidy (e : Env) (n : NoticeName) (s : Subject) (a b : Byte) (h : w.Tidy Z x c) : (raiseHalt e n s a b w).Tidy Z x c :=
  respondHalt_tidy e n ((quiet_post w _ _ _ _ _).tidy h)

theorem quiet_abandonMove (e : Env) (n : SwitchId) (w : Work) : Quiet w.toTrack (abandonMove e n w).toTrack :=
  quiet_modifySwitch w n _

theorem quiet_abandonAll (e : Env) (w : Work) : Quiet w.toTrack (abandonAll e w).toTrack := by
  unfold abandonAll
  refine Quiet.foldl (fun v n => ?_) _ w
  split
  · exact (quiet_abandonMove e n v).trans (quiet_post _ _ _ _ _ _)
  · exact .refl _

theorem quiet_holdRequests (w : Work) : Quiet w.toTrack ({ w with sections := w.sections.map holdRequests } : Work).toTrack where
  mode := rfl
  zones _ := rfl
  footprint _ := rfl
  authority _ := rfl
  state _ := .inl rfl
  claims := claimsFrom_same rfl rfl
  sections p y hy := by
    change (w.sections.map holdRequests)[p] = .held y at hy
    rw [Fin.getElem_fin, Vector.getElem_map] at hy
    rw [Fin.getElem_fin]
    cases hs : w.sections[(p : Nat)] with
    | none => rw [hs] at hy; cases hy
    | claimed => rw [hs] at hy; cases hy
    | held v =>
      rw [hs] at hy
      cases hy
      exact ⟨v, rfl, rfl⟩

theorem enterEstopped_tidy (e : Env) (a b : Bool) (h : w.Tidy Z x e.layout.committed) :
    (enterEstopped e a b w).Tidy Z x e.layout.committed := by
  have hm : ((.estopped : Mode) = .unconfigured → e.layout.committed = false) := nofun
  unfold enterEstopped
  split
  · exact (quiet_postMode _ _ _).tidy ((quiet_applyRelease _ e).tidy ((quiet_holdRequests _).tidy ((quiet_abandonAll e _).tidy
      (rideHalt_tidy e h ⟨fun _ => .inr rfl, hm⟩))))
  · exact (quiet_postMode _ _ _).tidy (h.withMode ⟨fun _ => .inr rfl, hm⟩)

/-! ### Trains lost and zones faulted (R22, R55) -/

/-- A train that has a zone is not ABSENT. -/
theorem Track.Tidy.ne_absent (h : w.Tidy Z x c) {t : TrainId} {z : ZoneId}
    (hz : z ∈ (w.trains[t]).footprint ∨ z ∈ (w.trains[t]).ahead) : (w.trains[t]).state ≠ .absent := by
  intro hs
  obtain ⟨-, -, -, hn, -, -⟩ := h.lists t
  obtain ⟨hf, ha⟩ := hn (.inl hs)
  unfold Train.ahead at hz
  rw [hf, ha] at hz
  exact hz.elim List.not_mem_nil List.not_mem_nil

/-- The zones of a train are those in its states. -/
theorem Track.Tidy.mem_iff (h : w.Tidy [] x c) (t : TrainId) (z : ZoneId) : z ∈ (w.trains[t]).footprint ++ (w.trains[t]).ahead ↔
    w.zoneState z = some (.occupied t) ∨ w.zoneState z = some (.reserved t) := by
  rw [List.mem_append]
  exact ⟨Or.imp (h.footprint z t) (h.ahead z t), Or.imp (h.occupied z t List.not_mem_nil) (h.reserved z t List.not_mem_nil)⟩

/-- What a lost train leaves of a zone's holder. -/
theorem loseTrain_state (h : w.Tidy [] x c) (t : TrainId) (z : ZoneId) {s : ZoneState} (hs : s ≠ .unknown) :
    (loseTrain t w).zoneState z = some s ↔ w.zoneState z = some s ∧ s ≠ .occupied t ∧ s ≠ .reserved t := by
  rw [loseTrain_zoneState]
  split
  · next hm =>
    rcases (h.mem_iff t z).1 hm with hz | hz <;> rw [hz] <;> simp only [Option.map_some, Option.some.injEq]
    · exact ⟨fun e => absurd e.symm hs, fun ⟨e, ho, _⟩ => absurd e.symm ho⟩
    · exact ⟨fun e => absurd e.symm hs, fun ⟨e, _, hr⟩ => absurd e.symm hr⟩
  · next hm =>
    rw [h.mem_iff] at hm
    refine ⟨fun e => ⟨e, fun ho => hm (.inl (ho ▸ e)), fun hr => hm (.inr (hr ▸ e))⟩, fun e => e.1⟩

theorem loseTrain_tidy (h : w.Tidy [] x c) {t : TrainId} (hs : (w.trains[t]).state ≠ .absent) : (loseTrain t w).Tidy [] x c := by
  obtain rfl := h.committed hs
  have hm : (loseTrain t w).mode = w.mode := (congrArg (fun v : Work => v.mode) (loseTrain_frame t w) :)
  have hsec : (loseTrain t w).sections = w.sections := (congrArg (fun v : Work => v.sections) (loseTrain_frame t w) :)
  have hcl := loseTrain_claims t w
  have hself := loseTrain_self t w
  have hst := fun z s => loseTrain_state h t z (s := s)
  have hnil : (Train.toLost w.trains[t]).ahead = [] := rfl
  refine Retrained.tidy (t := t) (a := w.toTrack)
    { mode := hm, others := fun u hu => loseTrain_other t w hu, reserved := fun z u hu => ?_, occupied := fun z u hu => ?_
      handed := fun z p hz => (hst z (.handed p) nofun).2 ⟨hz, nofun, nofun⟩, ahead := fun z hz => ?_, footprint := fun z hz => ?_
      reservedBy := fun z _ hz => ?_, occupiedBy := fun z _ hz => ?_, lists := ?_, claims := fun y g hy hg => .inl ?_
      sections := fun p y hy => by rwa [hsec] at hy, absent := nofun } h
  · rw [hst z (.reserved u) nofun]
    exact ⟨fun e => e.1, fun e => ⟨e, nofun, by simpa using hu⟩⟩
  · rw [hst z (.occupied u) nofun]
    exact ⟨fun e => e.1, fun e => ⟨e, by simpa using hu, nofun⟩⟩
  · rw [hself, hnil] at hz
    exact absurd hz List.not_mem_nil
  · rw [hself] at hz
    exact absurd hz List.not_mem_nil
  · obtain ⟨-, -, hr⟩ := (hst z (.reserved t) nofun).1 hz
    exact absurd rfl hr
  · obtain ⟨-, ho, -⟩ := (hst z (.occupied t) nofun).1 hz
    exact absurd rfl ho
  · rw [hself]
    exact listsAgree_of_none rfl rfl rfl
  · rw [hcl] at hy
    refine ⟨⟨y, List.mem_of_mem_filter hy, rfl⟩, fun e => ?_⟩
    have hno := List.of_mem_filter hy
    rw [← e, isLegOf_leg hg] at hno
    cases hno

/-- Trains lost one after the other: none of their zones is RESERVED or OCCUPIED any more, and no zone comes to be so. -/
theorem loseTrains_tidy (ts : List TrainId) (h : w.Tidy [] x c) (hs : ∀ t ∈ ts, (w.trains[t]).state ≠ .absent) :
    (ts.foldl (fun w t => loseTrain t w) w).Tidy [] x c ∧ ∀ (z : ZoneId) (u : TrainId) (s : ZoneState), s = .occupied u ∨ s = .reserved u →
      (ts.foldl (fun w t => loseTrain t w) w).zoneState z = some s → w.zoneState z = some s ∧ u ∉ ts := by
  induction ts generalizing w with
  | nil => exact ⟨h, fun z u s _ hz => ⟨hz, List.not_mem_nil⟩⟩
  | cons t ts ih =>
    obtain ⟨h1, h2⟩ := ih (loseTrain_tidy h (hs t (List.mem_cons_self ..))) fun u hu => by
      by_cases e : u = t
      · subst e
        rw [loseTrain_self]
        exact nofun
      · rw [loseTrain_other t w e]
        exact hs u (List.mem_cons_of_mem _ hu)
    refine ⟨h1, fun z u s hk hz => ?_⟩
    obtain ⟨hw, hn⟩ := h2 z u s hk hz
    obtain ⟨hz', ho, hr⟩ := (loseTrain_state h t z (by rcases hk with rfl | rfl <;> exact nofun)).1 hw
    refine ⟨hz', fun hm => ?_⟩
    rcases List.mem_cons.1 hm with rfl | hm
    · exact hk.elim ho hr
    · exact hn hm

/-- A zone that no train has becomes FAULT. -/
theorem quiet_faultZone (k : ZoneFault) {z : ZoneId} (hz : ∀ t, w.zoneState z ≠ some (.occupied t) ∧ w.zoneState z ≠ some (.reserved t)) :
    Quiet w.toTrack (faultZone k z w).toTrack := by
  unfold faultZone
  split
  · exact .refl _
  · exact .refl _
  · next s hnf hnh hs =>
    refine quiet_setZone w z _ ?_
    rw [hs]
    cases s with
    | occupied t => exact absurd hs (hz t).1
    | reserved t => exact absurd hs (hz t).2
    | handed p => exact absurd rfl (hnh p)
    | _ => rfl
  · exact .refl _

theorem quiet_faultAll (k : ZoneFault) (zs : List ZoneId)
    (hz : ∀ z ∈ zs, ∀ t, w.zoneState z ≠ some (.occupied t) ∧ w.zoneState z ≠ some (.reserved t)) :
    Quiet w.toTrack (zs.foldl (fun w z => faultZone k z w) w).toTrack := by
  induction zs generalizing w with
  | nil => exact .refl _
  | cons z zs ih =>
    have hq := quiet_faultZone k (hz z (List.mem_cons_self ..))
    refine hq.trans (ih fun y hy t => ?_)
    rw [Ne, Ne, hq.occupied, hq.reserved]
    exact hz y (List.mem_cons_of_mem _ hy) t

theorem faultZones_tidy (k : ZoneFault) (zs : List ZoneId) (h : w.Tidy [] x c) : (faultZones k zs w).Tidy [] x c := by
  obtain ⟨h1, h2⟩ := loseTrains_tidy (trainsAt w.toTrack zs) h fun t ht => by
    obtain ⟨z, -, hz⟩ := (mem_trainsAt _ _ _).1 ht
    exact h.ne_absent (List.mem_append.1 ((h.mem_iff t z).2 hz.symm))
  unfold faultZones
  refine (quiet_faultAll k zs fun z hz t => ⟨fun hs => ?_, fun hs => ?_⟩).tidy h1
  · obtain ⟨hw, hn⟩ := h2 z t _ (.inl rfl) hs
    exact hn ((mem_trainsAt _ _ _).2 ⟨z, hz, .inr hw⟩)
  · obtain ⟨hw, hn⟩ := h2 z t _ (.inr rfl) hs
    exact hn ((mem_trainsAt _ _ _).2 ⟨z, hz, .inl hw⟩)

theorem raiseAtZone_tidy (e : Env) (n : NoticeName) (k : ZoneFault) (z : ZoneId) (b : Byte) (h : w.Tidy [] x c) :
    (raiseAtZone e n k z b w).Tidy [] x c :=
  raiseHalt_tidy e n _ _ _ (faultZones_tidy k [z] h)

end

end Sys2Proof.Machine
end

section
/-! SUPPORT. Passages, moves, lapses of claims and the timers of trains keep zone states, footprints and authorities in agreement (R47 to
R52, R61, R62, R66 to R68, R102, R113, R120, R121, R129 to R131). -/

namespace Sys2Proof.Machine

/-! ### Head events (R47 to R50, R61, R66) -/

/-- A train whose head advances is then under way. -/
theorem departsNow_running {t : TrainId} {w : Work}
    (hm : mayAdvance w.trains[t] = true) (hl : (w.trains[t]).listsAgree) {st : TrainState}
    (hdep : departsNow w.trains[t] → st = .running) (hstay : ¬ departsNow w.trains[t] → st = (w.trains[t]).state) :
    st = .running ∨ st = .halted := by
  by_cases h : departsNow w.trains[t]
  · exact .inl (hdep h)
  · rw [hstay h]
    unfold mayAdvance at hm
    split at hm
    · next hs =>
      obtain ⟨-, -, -, -, -, hr⟩ := hl
      exact absurd ⟨hs, hr (by unfold Train.atRest; rw [hs])⟩ h
    · next hs => exact .inl hs
    · next hs => exact .inr hs
    all_goals cases hm

/-- The zones ahead after a head event are those beyond the zone entered, and no entry is left without zones. -/
theorem arrivedRecord_entered (e : Env) (z : ZoneId) (g : LegEntry) (gs : List LegEntry) (st : TrainState) (dp : Option Nat) (r : Train) :
    (arrivedRecord g (enteredRecord e z g gs st dp r)).state = st ∧
    (arrivedRecord g (enteredRecord e z g gs st dp r)).footprint = r.footprint ++ [z] ∧
    (arrivedRecord g (enteredRecord e z g gs st dp r)).ahead = g.zones.tail ++ gs.flatMap (·.zones) ∧
    ∀ q ∈ (arrivedRecord g (enteredRecord e z g gs st dp r)).authority, q ∈ gs ∨ q.zones ≠ [] := by
  unfold arrivedRecord
  cases hz : g.zones.tail with
  | nil =>
    refine ⟨rfl, rfl, rfl, fun q hq => .inl hq⟩
  | cons y ys =>
    refine ⟨rfl, rfl, ?_, fun q hq => ?_⟩
    · unfold enteredRecord Train.ahead
      rw [hz]
      rfl
    · rcases List.mem_cons.1 hq with rfl | hq
      · exact .inr (by rw [hz]; exact List.cons_ne_nil y ys)
      · exact .inl hq

section
variable {e : Env} {c : Bool} {w : Work} {t : TrainId} {z : ZoneId} {g : LegEntry} {gs : List LegEntry}

/-- The claims of a head event: those before, or new, for a train that can hold a leg. -/
theorem takeHead_from (hl : e.layout.legsAgree) (ht : ((takeHead e t z g gs w).trains[t]).live) :
    claimsFrom w.toTrack (takeHead e t z g gs w).toTrack := by
  obtain ⟨hc, hli, -⟩ := takeHead_claims e t z g gs w
  obtain ⟨-, hec, hel, -⟩ := entered_claims e t z g gs w
  have htrain : ∀ u : TrainId, ((takeHead e t z g gs w).trains[u]).state = ((entered e t z g gs w).trains[u]).state := by
    obtain ⟨cl, li, n, hf⟩ := takeHead_frame e t z g gs w
    intro u
    rw [hf]
    by_cases hu : u = t
    · subst hu
      rw [modifyTrain_self]
      unfold arrivedRecord
      split <;> rfl
    · rw [modifyTrain_other _ _ hu]
  have hlive : ∀ u : TrainId, ((entered e t z g gs w).trains[u]).live ↔ ((takeHead e t z g gs w).trains[u]).live := fun u => by
    unfold Train.live
    rw [htrain u]
  have hq : Quiet (entered e t z g gs w).toTrack (onwardAtStart e t g (entered e t z g gs w)).toTrack := by
    unfold onwardAtStart
    split
    · split
      · exact quiet_formOnward hl t _ _ _ ((hlive t).2 ht)
      · exact .refl _
    · exact .refl _
  intro d q hd hb
  rw [hc, hli] at hd
  rcases hq.claims d q hd hb with ⟨d', hd', he⟩ | ⟨hz, hn, hlv⟩
  · rw [hec, hel] at hd'
    exact .inl ⟨d', hd', he⟩
  · obtain ⟨cl, li, n, hf⟩ := onwardAtStart_frame e t g (entered e t z g gs w)
    rw [hf] at hlv
    exact .inr ⟨hz, hn, (hlive _).1 hlv⟩

theorem takeHead_tidy (hl : e.layout.legsAgree) (h : w.Tidy [] none c) (ha : (w.trains[t]).authority = g :: gs)
    (hz : (w.trains[t]).ahead.head? = some z) (hm : mayAdvance w.trains[t] = true) : (takeHead e t z g gs w).Tidy [] none c := by
  obtain ⟨st, dp, ps, hdep, hstay, hself, hother, hzones, -, hframe⟩ := takeHead_parts e t z g gs w
  obtain ⟨hfp, hah, hne, -, -, -⟩ := h.lists t
  have hrun := departsNow_running hm (h.lists t) (fun hd => (hdep hd).1) fun hd => (hstay hd).1
  obtain ⟨hst, hff, haf, hauth⟩ := arrivedRecord_entered e z g gs st dp w.trains[t]
  rw [← hself] at hst hff haf hauth
  have hlive : ((takeHead e t z g gs w).trains[t]).live := by
    unfold Train.live
    rw [hst]
    exact hrun.elim (fun e => .inr (.inr (.inr (.inl e)))) fun e => .inr (.inr (.inr (.inr e)))
  have hcons : (w.trains[t]).ahead = z :: (g.zones.tail ++ gs.flatMap (·.zones)) := by
    have hg : g.zones ≠ [] := hne g (by rw [ha]; exact List.mem_cons_self ..)
    obtain ⟨y, ys, hy⟩ := List.exists_cons_of_ne_nil hg
    unfold Train.ahead at hz ⊢
    rw [ha, List.flatMap_cons, hy] at hz ⊢
    cases hz
    rfl
  rw [hcons, List.nodup_cons] at hah
  obtain ⟨hzn, hrest⟩ := hah
  have hzr : w.zoneState z = some (.reserved t) := h.ahead z t (by rw [hcons]; exact List.mem_cons_self ..)
  have hzf : z ∉ (w.trains[t]).footprint := fun hm' => by
    have ho := h.footprint z t hm'
    rw [hzr] at ho
    cases ho
  have hstate : ∀ y, (takeHead e t z g gs w).zoneState y = if z = y then some (.occupied t) else w.zoneState y := fun y => by
    have hy : (takeHead e t z g gs w).zoneState y = (w.setZone z (.occupied t)).zoneState y := by
      unfold Track.zoneState
      rw [hzones]
    rw [hy, setZone_zoneState]
    split
    · next e => rw [← e, hzr]; rfl
    · rfl
  have hkeep : ∀ y s, s ≠ .reserved t → s ≠ .occupied t → ((takeHead e t z g gs w).zoneState y = some s ↔ w.zoneState y = some s) := by
    intro y s hr ho
    rw [hstate]
    split
    · next e =>
      rw [← e, hzr]
      exact ⟨fun e => absurd (Option.some.inj e).symm ho, fun e => absurd (Option.some.inj e).symm hr⟩
    · exact .rfl
  have hnotrest : ((takeHead e t z g gs w).trains[t]).atRest = false := by
    unfold Train.atRest
    rw [hst]
    rcases hrun with e | e <;> rw [e]
  refine Retrained.tidy (t := t) (a := w.toTrack)
    { mode := (congrArg (fun v : Work => v.mode) hframe :), others := hother
      reserved := fun y u hu => hkeep y _ (by simpa using hu) nofun
      occupied := fun y u hu => hkeep y (.occupied u) nofun (by simpa using hu), handed := fun y p => (hkeep y (.handed p) nofun nofun).2
      ahead := fun y hy => ?_, footprint := fun y hy => ?_, reservedBy := fun y _ hy => ?_, occupiedBy := fun y _ hy => ?_
      lists := ?_, claims := fun d q hd hq => ?_
      sections := fun p s hs => by rwa [(congrArg (fun v : Work => v.sections) hframe :)] at hs
      absent := fun hc => ?_ } h
  · rw [haf] at hy
    have hyz : z ≠ y := fun e => hzn (e ▸ hy)
    rw [hstate, if_neg hyz]
    exact h.ahead y t (by rw [hcons]; exact List.mem_cons_of_mem _ hy)
  · rw [hff] at hy
    rw [hstate]
    split
    · rfl
    · next hyz =>
      refine h.footprint y t ((List.mem_append.1 hy).resolve_right fun e => hyz (List.mem_singleton.1 e).symm)
  · rw [hstate] at hy
    split at hy
    · cases hy
    · next hyz =>
      have hm' := h.reserved y t List.not_mem_nil hy
      rw [hcons] at hm'
      rw [haf]
      exact (List.mem_cons.1 hm').resolve_left fun e => hyz e.symm
  · rw [hff]
    rw [hstate] at hy
    split at hy
    · next e => exact List.mem_append_right _ (List.mem_singleton.2 e.symm)
    · exact List.mem_append_left _ (h.occupied y t List.not_mem_nil hy)
  · refine listsAgree_of_live hlive ?_ (by rw [haf]; exact hrest) (fun q hq => ?_) fun hr => ?_
    · rw [hff]
      exact List.nodup_append'.2 ⟨hfp, List.nodup_singleton z, fun y hy hz' => hzf (List.mem_singleton.1 hz' ▸ hy)⟩
    · exact (hauth q hq).elim (fun hg => hne q (by rw [ha]; exact List.mem_cons_of_mem _ hg)) id
    · rw [hnotrest] at hr
      cases hr
  · rcases takeHead_from hl hlive d q hd hq with hd | hn
    · exact .inl ⟨hd, fun _ => hlive⟩
    · exact .inr hn
  · refine absurd (h.absent hc t) (h.ne_absent (z := z) (.inr ?_))
    rw [hcons]
    exact List.mem_cons_self ..

theorem headInAuthority_tidy (hl : e.layout.legsAgree) (s : ZoneState) (h : w.Tidy [] none c) (hz : z ∈ (w.trains[t]).ahead) :
    (headInAuthority e t z s w).Tidy [] none c := by
  unfold headInAuthority
  split
  · exact h
  · next g gs ha =>
    split
    · next hhead =>
      split
      · next hm =>
        split
        · exact raiseHalt_tidy e _ _ _ _ (loseTrain_tidy h (h.ne_absent (.inr hz)))
        · have hh := takeHead_tidy hl h ha hhead hm
          unfold checkShort
          split
          · exact raiseHalt_tidy e _ _ _ _ hh
          · exact hh
      · exact raiseAtZone_tidy e _ _ _ _ h
    · unfold missSensor
      split
      · exact h
      · exact raiseHalt_tidy e _ _ _ _ (faultZones_tidy _ _ h)

theorem headEvent_tidy (hl : e.layout.legsAgree) (h : w.Tidy [] none c) : (headEvent e z w).Tidy [] none c := by
  unfold headEvent
  split
  · exact h
  · exact h
  · split
    · next t ht =>
      have hz := List.find?_some ht
      exact closeEvent_tidy hl (headInAuthority_tidy hl _ h (by simpa using hz))
    · exact closeEvent_tidy hl (raiseAtZone_tidy e _ _ _ _ h)

/-! ### Tail events (R20, R21, R51, R62) -/

theorem vacated_free (e : Env) (t : TrainId) (z : ZoneId) : (vacated e t z).grip = .clear := by
  unfold vacated
  split <;> rfl

theorem takeTail_tidy (h : w.Tidy [] none c) (hz : z ∈ (w.trains[t]).footprint) (hh : (w.trains[t]).footprint.head? ≠ some z) :
    (takeTail e t z w).Tidy [] none c := by
  obtain ⟨a, b, hf, hza⟩ := List.eq_append_cons_of_mem hz
  obtain ⟨hfp, hah, hne, hno, hst, hre⟩ := h.lists t
  have hframe := takeTail_frame (e := e) hf hza
  have hself := takeTail_self (e := e) hf hza
  have hane : a ≠ [] := fun e => hh (by rw [hf, e]; rfl)
  have hrest : (w.trains[t]).atRest = false := eq_false_of_ne_true fun hr => by
    obtain ⟨y, hy⟩ := hre hr
    rw [hf] at hy
    have hlen := congrArg List.length hy
    rw [List.length_append, List.length_cons, List.length_singleton] at hlen
    exact hane (List.length_eq_zero_iff.1 (by omega))
  have hstate : ∀ y, (takeTail e t z w).zoneState y = if y ∈ a then (w.zoneState y).map fun _ => vacated e t y else w.zoneState y := by
    intro y
    unfold Track.zoneState
    rw [takeTail_zone hf hza]
    split
    · cases w.zones[y] <;> rfl
    · rfl
  have hocc : ∀ y ∈ a, w.zoneState y = some (.occupied t) := fun y hy => h.footprint y t (by rw [hf]; exact List.mem_append_left _ hy)
  have hnone : ∀ y s, s.grip ≠ .clear → ((takeTail e t z w).zoneState y = some s ↔ y ∉ a ∧ w.zoneState y = some s) := by
    intro y s hs
    rw [hstate]
    split
    · next hy =>
      rw [hocc y hy, Option.map_some, Option.some.injEq]
      exact ⟨fun e => absurd (e ▸ vacated_free _ t y) hs, fun e => absurd hy e.1⟩
    · next hy => exact ⟨fun e => ⟨hy, e⟩, fun e => e.2⟩
  have hkeep : ∀ y s, s.grip ≠ .clear → s ≠ .occupied t → ((takeTail e t z w).zoneState y = some s ↔ w.zoneState y = some s) := by
    intro y s hs ho
    rw [hnone y s hs]
    exact ⟨fun e => e.2, fun e => ⟨fun hy => ho (Option.some.inj ((hocc y hy).symm.trans e)).symm, e⟩⟩
  have hahead : ((takeTail e t z w).trains[t]).ahead = (w.trains[t]).ahead := by rw [hself]; rfl
  refine Retrained.tidy (t := t) (a := w.toTrack)
    { mode := (congrArg (fun v : Work => v.mode) hframe :), others := fun u hu => takeTail_other hf hza hu
      reserved := fun y u _ => hkeep y (.reserved u) nofun nofun
      occupied := fun y u hu => hkeep y (.occupied u) nofun (by simpa using hu), handed := fun y p => (hkeep y (.handed p) nofun nofun).2
      ahead := fun y hy => ?_, footprint := fun y hy => ?_, reservedBy := fun y _ hy => ?_, occupiedBy := fun y _ hy => ?_
      lists := ?_, claims := fun d q hd hq => .inl ?_
      sections := fun p s hs => by rwa [(congrArg (fun v : Work => v.sections) hframe :)] at hs
      absent := fun hc => absurd (h.absent hc t) (h.ne_absent (.inl hz)) } h
  · rw [hahead] at hy
    exact (hkeep y (.reserved t) nofun nofun).2 (h.ahead y t hy)
  · rw [hself] at hy
    rw [hf] at hfp
    exact (hnone y (.occupied t) nofun).2 ⟨fun hm => List.disjoint_of_nodup_append hfp hm hy,
      h.footprint y t (by rw [hf]; exact List.mem_append_right _ hy)⟩
  · rw [hahead]
    exact h.reserved y t List.not_mem_nil ((hkeep y (.reserved t) nofun nofun).1 hy)
  · obtain ⟨hn, ho⟩ := (hnone y (.occupied t) nofun).1 hy
    have hm := h.occupied y t List.not_mem_nil ho
    rw [hf] at hm
    rw [hself]
    exact (List.mem_append.1 hm).resolve_left hn
  · rw [hself]
    rw [hf] at hfp
    refine ⟨hfp.of_append_right, hah, hne, fun hs => ?_, hst, fun hr => absurd hr (by unfold Train.atRest at hrest ⊢; simp only [hrest]; exact Bool.false_ne_true)⟩
    obtain ⟨hn, -⟩ := hno hs
    rw [hf] at hn
    exact absurd hn (by simp)
  · have hcl : (takeTail e t z w).claims = w.claims := (congrArg (fun v : Work => v.claims) hframe :)
    have hli : (takeTail e t z w).line = w.line := (congrArg (fun v : Work => v.line) hframe :)
    rw [hcl, hli] at hd
    refine ⟨⟨d, hd, rfl⟩, fun ht => ?_⟩
    obtain ⟨-, -, hlive⟩ := h.claims d q hd hq
    subst ht
    rw [hself]
    exact hlive

theorem quiet_restReleased (e : Env) (t : TrainId) (z : ZoneId) (w : Work) : Quiet w.toTrack (restReleased e t z w).toTrack := by
  unfold restReleased
  dsimp only
  split
  · next hr =>
    obtain ⟨hs, hf, -⟩ := hr
    exact quiet_modifyTrain w t (fun r => { r with state := .cleared, travel := none, departure := some (((e.zone z).map windowMs).getD 0) })
      rfl rfl (.inr ⟨.inr (.inr (.inr (.inl hs))), .inr (.inr (.inl rfl)), fun _ => ⟨z, rest_some.1 hf⟩⟩)
  · exact .refl _

theorem tailEvent_tidy (hl : e.layout.legsAgree) (h : w.Tidy [] none c) : (tailEvent e z w).Tidy [] none c := by
  unfold tailEvent
  split
  · exact h
  · exact h
  · split
    · exact h
    · next t ht =>
      split
      · exact h
      · next hh =>
        have hz := List.find?_some ht
        exact closeEvent_tidy hl ((quiet_restReleased e t z _).tidy (takeTail_tidy h (by simpa using hz) hh))

end

end Sys2Proof.Machine
end

section
/-! SUPPORT. The orders and events on the track but for the return of a section keep zone states, footprints and authorities in
agreement. -/

namespace Sys2Proof.Machine

section
variable {e : Env} {c : Bool} {w : Work} {t : TrainId} {z : ZoneId}

/-! ### One train's record, its zones kept -/

/-- A train's record changed, its zones kept: one in a state in which it can hold a leg stays in one, unless it has no claims. -/
theorem modifyTrain_tidy {Z : List ZoneId} {x : Option PortId} {f : Train → Train} (h : w.Tidy Z x c)
    (hf : (f w.trains[t]).footprint = (w.trains[t]).footprint) (ha : (f w.trains[t]).ahead = (w.trains[t]).ahead)
    (hl : (f w.trains[t]).listsAgree) (hn : (w.trains[t]).state ≠ .absent)
    (hc : ∀ d ∈ w.claims ++ w.line, d.isLegOf t = true → (w.trains[t]).live → (f w.trains[t]).live) :
    (w.modifyTrain t f).Tidy Z x c := by
  obtain rfl := h.committed hn
  have hself : (w.modifyTrain t f).trains[t] = f w.trains[t] := modifyTrain_self w t f
  refine Retrained.tidy (t := t) (a := w.toTrack)
    { mode := rfl, others := fun u hu => modifyTrain_other w f hu, reserved := fun _ _ _ => .rfl, occupied := fun _ _ _ => .rfl
      handed := fun _ _ => id, ahead := fun z hz => ?_, footprint := fun z hz => ?_, reservedBy := fun z hm hz => ?_
      occupiedBy := fun z hm hz => ?_, lists := hself ▸ hl, claims := fun d g hd hg => .inl ⟨⟨d, hd, rfl⟩, fun e => ?_⟩
      sections := fun _ _ => id, absent := nofun } h
  · rw [hself, ha] at hz
    exact h.ahead z t hz
  · rw [hself, hf] at hz
    exact h.footprint z t hz
  · rw [hself, ha]
    exact h.reserved z t hm hz
  · rw [hself, hf]
    exact h.occupied z t hm hz
  · obtain ⟨-, -, hlive⟩ := h.claims d g hd hg
    subst e
    rw [hself]
    exact hc d hd (isLegOf_leg hg) hlive

/-- A train in one zone without authority is STANDING or STORED. -/
theorem listsAgree_of_single {r : Train} (hf : r.footprint = [z]) (ha : r.authority = []) (hs : r.state = .standing ∨ r.state = .stored) :
    r.listsAgree := by
  refine ⟨hf ▸ List.nodup_singleton z, ?_, fun g hg => ?_, fun hn => ?_, fun _ => ha, fun _ => ⟨z, hf⟩⟩
  · unfold Train.ahead
    rw [ha]
    exact List.nodup_nil
  · rw [ha] at hg
    exact absurd hg List.not_mem_nil
  · rcases hs with hs | hs <;> rw [hs] at hn <;> simp at hn

theorem ahead_nil {r : Train} (ha : r.authority = []) : r.ahead = [] := by
  unfold Train.ahead
  rw [ha]
  rfl

/-- A train at rest is in one zone. -/
theorem Track.Tidy.single {Z : List ZoneId} {x : Option PortId} (h : w.Tidy Z x c)
    (hs : (w.trains[t]).state = .stored ∨ (w.trains[t]).state = .standing ∨ (w.trains[t]).state = .claiming ∨ (w.trains[t]).state = .cleared) :
    ∃ y, (w.trains[t]).footprint = [y] := by
  obtain ⟨-, -, -, -, -, hr⟩ := h.lists t
  refine hr ?_
  unfold Train.atRest
  rcases hs with hs | hs | hs | hs <;> rw [hs]

/-- No claim belongs to a train that cannot hold a leg. -/
theorem Track.Tidy.claimless {Z : List ZoneId} {x : Option PortId} (h : w.Tidy Z x c) (hs : ¬ (w.trains[t]).live) :
    ∀ d ∈ w.claims ++ w.line, d.isLegOf t = false := by
  intro d hd
  refine eq_false_of_ne_true fun hm => hs ?_
  cases hb : d.body with
  | sectionOf g =>
    unfold Claim.isLegOf Claim.legOf at hm
    rw [hb] at hm
    cases hm
  | leg g =>
    obtain ⟨-, -, hlive⟩ := h.claims d g hd hb
    unfold Claim.isLegOf Claim.legOf at hm
    rw [hb] at hm
    have ht : g.train = t := by
      by_contra hne
      simp [hne] at hm
    subst ht
    exact hlive

theorem not_live {r : Train} (hs : r.state = .absent ∨ r.state = .stored ∨ r.state = .manual ∨ r.state = .lost) : ¬ r.live := by
  unfold Train.live
  rcases hs with hs | hs | hs | hs <;> rw [hs] <;> simp

/-! ### Modes (R148) -/

theorem foldl_tidy {α : Type} {f : Work → α → Work} {xs : List α} (hf : ∀ v x, v.Tidy [] none c → (f v x).Tidy [] none c)
    (h : w.Tidy [] none c) : (xs.foldl f w).Tidy [] none c := by
  induction xs generalizing w with
  | nil => exact h
  | cons x xs ih => exact ih (hf w x h)

theorem resumeTrain_tidy (hl : e.layout.legsAgree) (h : w.Tidy [] none c) : (resumeTrain e t w).Tidy [] none c := by
  unfold resumeTrain
  split
  · next ha =>
    simp only [admitted, Bool.and_eq_true, decide_eq_true_eq] at ha
    obtain ⟨⟨⟨hs, -⟩, -⟩, -⟩ := ha
    have hf := h.single (.inr (.inl hs))
    split
    · exact (quiet_formAtRest hl t _ _ w (.inl hs) hf).tidy h
    · exact (quiet_startDwell hl t _ w (.inl hs) hf).tidy h
    all_goals exact h
  · exact h

theorem resume_tidy (hl : e.layout.legsAgree) (h : w.Tidy [] none c) : (resume e w).Tidy [] none c := by
  unfold resume
  exact foldl_tidy (fun _ _ => resumeTrain_tidy hl) h

theorem calm_standbyClaim (d : Claim) (w : Work) : Calm w.toTrack (standbyClaim d w).toTrack := by
  unfold standbyClaim
  split
  · exact (calm_withdrawClaim d w).trans (quiet_postAbort _ _ _ _).calm
  · exact .refl _

theorem enterOperating_tidy (hl : e.layout.legsAgree) (hc : c = true) (h : w.Tidy [] none c) : (enterOperating e w).Tidy [] none c := by
  subst hc
  exact closeEvent_tidy hl (resume_tidy hl ((quiet_postMode _ _ _).tidy (h.withMode (m := .operating) ⟨nofun, nofun⟩)))

theorem enterStandby_tidy (hl : e.layout.legsAgree) (hc : c = true) (h : w.Tidy [] none c) : (enterStandby e w).Tidy [] none c := by
  subst hc
  exact closeEvent_tidy hl ((quiet_postMode _ _ _).tidy ((quiet_applyRelease _ e).tidy
    ((Calm.foldl (fun v d => calm_standbyClaim d v) _ _).tidy (h.withMode (m := .standby) ⟨nofun, nofun⟩))))

theorem enterHalted_tidy (hl : e.layout.legsAgree) (hc : c = true) (h : w.Tidy [] none c) : (enterHalted e w).Tidy [] none c := by
  subst hc
  unfold enterHalted
  split
  · exact closeEvent_tidy hl ((quiet_postMode _ _ _).tidy (rideHalt_tidy e h ⟨nofun, nofun⟩))
  · exact closeEvent_tidy hl ((quiet_postMode _ _ _).tidy ((quiet_applyRelease _ e).tidy (h.withMode (m := .halted) ⟨nofun, nofun⟩)))

/-! ### Trains placed, assigned and retired (R56, R69 to R71) -/

theorem placeable_iff {w : Track} (h : placeable (w.zoneState z) = true) : (w.zoneState z).map ZoneState.grip = some .clear := by
  generalize w.zoneState z = o at h ⊢
  cases o with
  | none => cases h
  | some s =>
    cases s with
    | clear => rfl
    | unknown => rfl
    | fault k => rfl
    | _ => cases h

theorem place_tidy (hl : e.layout.legsAgree) {tag : Nat} {q : TrainState × Option Ride} (hc : c = true)
    (ht : (w.trains[t]).unplaced = true) (hz : placeable (w.zoneState z) = true) (hq : q.1 = .stored ∨ q.1 = .standing)
    (h : w.Tidy [] none c) : (place t z tag q e w).Tidy [] none c := by
  subst hc
  have hgrip := placeable_iff hz
  have hun : (w.trains[t]).state = .absent ∨ (w.trains[t]).state = .lost := by simpa [Train.unplaced] using ht
  have hnone : (w.trains[t]).footprint = [] ∧ (w.trains[t]).authority = [] := by
    obtain ⟨-, -, -, hn, -, -⟩ := h.lists t
    exact hn (hun.elim .inl fun e => .inr (.inr e))
  have hclaims := h.claimless (not_live (hun.elim .inl fun e => .inr (.inr (.inr e))))
  have hstate : ∀ y, ((w.setZone z (.occupied t)).setTrain t (placedTrain z tag q)).zoneState y =
      if z = y then some (.occupied t) else w.zoneState y := fun y => by
    refine (setZone_zoneState w z y (.occupied t)).trans ?_
    split
    · next e =>
      subst e
      cases hs : w.zoneState z with
      | none => rw [hs] at hgrip; cases hgrip
      | some s => rfl
    · rfl
  have hkeep : ∀ y s, s.grip ≠ .clear → s ≠ .occupied t →
      (((w.setZone z (.occupied t)).setTrain t (placedTrain z tag q)).zoneState y = some s ↔ w.zoneState y = some s) := by
    intro y s hs ho
    rw [hstate]
    split
    · next e =>
      subst e
      refine ⟨fun e => absurd (Option.some.inj e).symm ho, fun e => absurd ?_ hs⟩
      rw [e] at hgrip
      exact Option.some.inj hgrip
    · exact .rfl
  have hself : ((w.setZone z (.occupied t)).setTrain t (placedTrain z tag q)).trains[t] = placedTrain z tag q := setTrain_self _ _ _
  have htidy : ((w.setZone z (.occupied t)).setTrain t (placedTrain z tag q)).Tidy [] none true := by
    refine Retrained.tidy (t := t) (a := w.toTrack)
      { mode := rfl, others := fun u hu => setTrain_other _ _ hu, reserved := fun y u _ => hkeep y (.reserved u) nofun nofun
        occupied := fun y u hu => hkeep y (.occupied u) nofun (by simpa using hu)
        handed := fun y p => (hkeep y (.handed p) nofun nofun).2, ahead := fun y hy => ?_, footprint := fun y hy => ?_
        reservedBy := fun y _ hy => ?_, occupiedBy := fun y _ hy => ?_, lists := ?_
        claims := fun d g hd hg => .inl ⟨⟨d, hd, rfl⟩, fun e => ?_⟩, sections := fun _ _ => id, absent := nofun } h
    · rw [hself] at hy
      exact absurd hy List.not_mem_nil
    · rw [hself] at hy
      rw [hstate, if_pos (List.mem_singleton.1 hy).symm]
    · have hm := h.reserved y t List.not_mem_nil ((hkeep y (.reserved t) nofun nofun).1 hy)
      rw [ahead_nil hnone.2] at hm
      exact absurd hm List.not_mem_nil
    · rw [hself]
      rw [hstate] at hy
      split at hy
      · next e => exact List.mem_singleton.2 e.symm
      · have hm := h.occupied y t List.not_mem_nil hy
        rw [hnone.1] at hm
        exact absurd hm List.not_mem_nil
    · rw [hself]
      exact listsAgree_of_single rfl rfl hq.symm
    · have hd' := hclaims d hd
      rw [← e, isLegOf_leg hg] at hd'
      cases hd'
  unfold place actIfStanding
  refine closeEvent_tidy hl ?_
  split
  · next hs => exact (quiet_actOnStep hl t _ (.inl hs) (htidy.single (.inr (.inl hs)))).tidy htidy
  · exact htidy

theorem assign_tidy (hl : e.layout.legsAgree) (d : Ride) (hs : (w.trains[t]).state = .stored) (h : w.Tidy [] none c) :
    (assign t d e w).Tidy [] none c := by
  obtain ⟨y, hy⟩ := h.single (.inl hs)
  obtain ⟨-, -, -, -, hst, -⟩ := h.lists t
  have hm : (w.modifyTrain t fun r => { r with state := .standing, ride := some d }).Tidy [] none c :=
    modifyTrain_tidy h rfl rfl (listsAgree_of_single hy (hst hs) (.inl rfl)) (by rw [hs]; exact nofun) fun _ _ _ _ => .inl rfl
  have hself : ((w.modifyTrain t fun r => { r with state := .standing, ride := some d }).trains[t]).state = .standing := by
    rw [modifyTrain_self]
  exact closeEvent_tidy hl ((quiet_actOnStep hl t _ (.inl hself) (hm.single (.inr (.inl hself)))).tidy hm)

theorem retireStore_tidy (hl : e.layout.legsAgree) (hs : (w.trains[t]).state = .standing ∨ (w.trains[t]).state = .claiming)
    (h : w.Tidy [] none c) : (retireStore t e w).Tidy [] none c := by
  have hcalm := (calm_withdrawAll (fun d => d.isLegOf t) w).trans (calm_removeEntries t 0 _)
  have hv := hcalm.tidy h
  have hlive : (w.trains[t]).live := hs.elim .inl fun e => .inr (.inl e)
  obtain ⟨y, hy⟩ := h.single (.inr (hs.elim .inl fun e => .inr (.inl e)))
  have hauth : ((removeEntries t 0 (withdrawAll (fun d => d.isLegOf t) w)).trains[t]).authority = [] := by
    rw [removeEntries_self]
    rfl
  refine closeEvent_tidy hl ((quiet_postAbort _ _ _ _).tidy (modifyTrain_tidy hv rfl ?_ ?_ ?_ fun d hd hm => ?_))
  · rw [ahead_nil hauth]
    rfl
  · exact listsAgree_of_single ((hcalm.footprint t).trans hy) rfl (.inr rfl)
  · exact (live_ne (hcalm.live hlive)).1
  · have hd' := (withdrawAll_sub _ w d (removeEntries_sub _ _ _ d hd)).2
    rw [hm] at hd'
    cases hd'

theorem retireRemove_tidy (hl : e.layout.legsAgree) (hs : (w.trains[t]).state = .stored ∨ (w.trains[t]).state = .lost)
    (h : w.Tidy [] none c) : (retireRemove t e w).Tidy [] none c := by
  obtain rfl := h.committed (t := t) (by rcases hs with hs | hs <;> rw [hs] <;> exact nofun)
  have hclaims := h.claimless (not_live (.inr (hs.elim .inl fun e => .inr (.inr e))))
  obtain ⟨-, -, -, hn, hst, -⟩ := h.lists t
  have hauth : (w.trains[t]).authority = [] := hs.elim hst fun e => (hn (.inr (.inr e))).2
  obtain ⟨hg, hem⟩ := emptied_modifyTrain (Z := (w.trains[t]).footprint) (f := fun _ => Train.gone) rfl rfl rfl h.moving
    (fun _ => id) hauth hclaims
  refine closeEvent_tidy hl ?_
  unfold vacateUnknown
  split
  · next z hz =>
    have hf := rest_some.1 hz
    have hzo : w.zoneState z = some (.occupied t) := h.footprint z t (by rw [hf]; exact List.mem_singleton.2 rfl)
    refine setZones_tidy (zs := [z]) (s := .unknown) hg (fun y hy => hf ▸ hy) (fun _ => ⟨nofun, nofun⟩) (fun y u hy hr => ?_)
      (fun y u hy hm => ?_) fun p x _ hx y hy hm => ?_
    · rw [List.mem_singleton.1 hy] at hr
      have hr' := hem.reserved z u hr
      rw [hzo] at hr'
      cases hr'
    · rw [List.mem_singleton.1 hy] at hm
      by_cases hu : u ∈ [t]
      · rw [hem.gone u hu] at hm
        exact List.not_mem_nil hm
      · have ho := (hem.occupied z u).1 (hg.footprint z u hm)
        rw [hzo] at ho
        cases ho
        exact hu (List.mem_singleton.2 rfl)
    · rw [List.mem_singleton.1 hm] at hy
      have hh := h.sections p x nofun hx z hy
      rw [hzo] at hh
      cases hh
  · next hr =>
    have hf : (w.trains[t]).footprint = [] := by
      rcases hs with hs | hs
      · obtain ⟨y, hy⟩ := h.single (.inl hs)
        rw [rest_some.2 hy] at hr
        cases hr
      · exact (hn (.inr (.inr hs))).1
    rw [hf] at hg
    exact hg

end

end Sys2Proof.Machine
end

section
/-! SUPPORT. The events of inputs and timers, dispatches, moves, sections and lapses keep zone states, footprints and authorities in
agreement. -/

namespace Sys2Proof.Machine

section
variable {e : Env} {c : Bool} {w : Work} {t : TrainId} {z : ZoneId}

/-! ### Orders of the supervisor and of masters -/

theorem assertEmpty_tidy (hl : e.layout.legsAgree) (hz : doubtful (w.zoneState z) = true) (h : w.Tidy [] none c) :
    (assertEmpty z e w).Tidy [] none c := by
  refine closeEval_tidy hl ((quiet_setZone w z .clear ?_).tidy h)
  generalize w.zoneState z = o at hz ⊢
  cases o with
  | none => cases hz
  | some s =>
    cases s with
    | unknown => rfl
    | fault k => rfl
    | _ => cases hz

theorem proceed_tidy (hl : e.layout.legsAgree) (hs : (w.trains[t]).state = .standing) (h : w.Tidy [] none c) :
    (proceed t e w).Tidy [] none c := by
  have hq := quiet_modifyTrain_other w t (fun r => { r.mapRide fun d => { d with stalled := false } with dwell := none }) rfl rfl rfl
  have hf := h.single (.inr (.inl hs))
  exact closeEval_tidy hl ((hq.trans (quiet_formAtRest hl t _ _ _ (hq.live (.inl hs)) (by rw [hq.footprint]; exact hf))).tidy h)

theorem legOrder_tidy (hl : e.layout.legsAgree) (o : Origin) (wait : Option Nat) (hs : (w.trains[t]).state = .standing)
    (h : w.Tidy [] none c) : (legOrder t o wait e w).Tidy [] none c := by
  have hq : Quiet w.toTrack (clearStalled t w).toTrack := quiet_modifyTrain_other w t _ rfl rfl rfl
  have hf := h.single (.inr (.inl hs))
  exact closeEval_tidy hl ((hq.trans (quiet_formAtRest hl t _ _ _ (hq.live (.inl hs)) (by rw [hq.footprint]; exact hf))).tidy h)

theorem calm_abortClaimed (t : TrainId) (z : ZoneId) (x : AbortCause) (w : Work) : Calm w.toTrack (abortClaimed t z x w).toTrack := by
  unfold abortClaimed
  split
  · exact (calm_withdrawClaim _ w).trans (quiet_postAbort _ _ _ _).calm
  · exact .refl _

theorem requestSection_tidy (hl : e.layout.legsAgree) (p : PortId) (zs : List ZoneId) (wait : Option Nat) (h : w.Tidy [] none c) :
    (requestSection p zs wait e w).Tidy [] none c :=
  closeEval_tidy hl (((quiet_arriveClaim w _ _ fun g hg => by cases hg).trans (quiet_setSection _ p .claimed nofun)).tidy h)

theorem cancelSection_tidy (hl : e.layout.legsAgree) (p : PortId) (h : w.Tidy [] none c) : (cancelSection p e w).Tidy [] none c :=
  closeEval_tidy hl ((quiet_setSection _ p .none nofun).tidy ((calm_withdrawAll _ w).tidy h))

theorem quiet_setHold {p : PortId} {x : HeldSection} (z : ZoneId) (y : Hold) (hx : w.sections[p] = .held x) :
    Quiet w.toTrack (setHold p x z y e w).toTrack :=
  (quiet_setSection w p _ fun v hv => ⟨x, hx, by cases hv; rfl⟩).trans (quiet_applyRelease _ e)

theorem moveFor_tidy (hl : e.layout.legsAgree) (p : PortId) (n : SwitchId) (q : Position) (h : w.Tidy [] none c) :
    (moveFor p n q e w).Tidy [] none c :=
  arrivals_tidy hl 4 (((quiet_startMove w e n q _).trans (quiet_applyRelease _ e)).tidy h)

/-! ### Lapses (R120, R124, R139, R147) -/

theorem calm_lapseClaims (p : PortId) (w : Work) : Calm w.toTrack (lapseClaims p w).toTrack := by
  unfold lapseClaims
  refine Calm.foldl (fun v d => ?_) _ w
  unfold lapseClaim
  split
  · exact (calm_withdrawClaim d v).trans (quiet_postAbort _ _ _ _).calm
  · exact .refl _

/-- MANUAL trains become LOST: they have neither zones nor claims. -/
theorem loseManual_tidy {x : Option PortId} (ts : List TrainId)
    (hs : ∀ t ∈ ts, (w.trains[t]).state = .manual ∨ (w.trains[t]).state = .lost) (h : w.Tidy [] x c) :
    (ts.foldl (fun w t => w.modifyTrain t Train.toLost) w).Tidy [] x c := by
  induction ts generalizing w with
  | nil => exact h
  | cons t ts ih =>
    have ht := hs t (List.mem_cons_self ..)
    obtain ⟨-, -, -, hn, -, -⟩ := h.lists t
    obtain ⟨hf, ha⟩ := hn (.inr ht)
    refine ih (fun u hu => ?_) (modifyTrain_tidy h hf.symm (ahead_nil ha).symm (listsAgree_of_none rfl rfl rfl)
      (by rcases ht with ht | ht <;> rw [ht] <;> exact nofun) fun _ _ _ hlive => absurd hlive (not_live (.inr (.inr ht))))
    by_cases e : u = t
    · subst e
      rw [modifyTrain_self]
      exact .inr rfl
    · rw [modifyTrain_other _ _ e]
      exact hs u (List.mem_cons_of_mem _ hu)

/-- The zones of a section have no train, and no other section has them. -/
theorem Track.Tidy.section_zones {p : PortId} {y : HeldSection} (h : w.Tidy [] none c) (hy : w.sections[p] = .held y) :
    (∀ (z : ZoneId) (t : TrainId), z ∈ y.zones → w.zoneState z ≠ some (.reserved t) ∧ w.zoneState z ≠ some (.occupied t)) ∧
    ∀ (q : PortId) (v : HeldSection), some q ≠ some p → w.sections[q] = .held v → ∀ z ∈ v.zones, z ∉ y.zones := by
  refine ⟨fun z t hz => ?_, fun q v hq hv z hz hm => ?_⟩
  · rw [h.sections p y nofun hy z hz]
    exact ⟨nofun, nofun⟩
  · have h1 := h.sections q v nofun hv z hz
    rw [h.sections p y nofun hy z hm] at h1
    cases h1
    exact hq rfl

theorem revokeSection_tidy {p : PortId} {y : HeldSection} (hy : w.sections[p] = .held y) (h : w.Tidy [] none c) :
    (revokeSection e p y w).Tidy [] none c := by
  obtain ⟨hfree, hother⟩ := h.section_zones hy
  have h1 := setZones_tidy (zs := y.zones) (s := .unknown) (h.except (some p)) (fun _ hz => absurd hz List.not_mem_nil)
    (fun _ => ⟨nofun, nofun⟩) (fun z t hz => (hfree z t hz).1) (fun z t hz hm => (hfree z t hz).2 (h.footprint z t hm)) hother
  have h2 := loseManual_tidy (w.manualTrains p) (fun t ht => .inl ?_) h1
  · exact (quiet_post _ _ _ _ _ _).tidy ((quiet_applyRelease _ e).tidy
      (setSection_tidy ((Quiet.foldl (fun v n => quiet_modifySwitch v n _) _ _).tidy h2) nofun))
  · rw [setZones_trains]
    have hm := List.of_mem_filter ht
    simp only [Bool.and_eq_true, decide_eq_true_eq] at hm
    exact hm.1

theorem lapseSection_tidy (p : PortId) (h : w.Tidy [] none c) : (lapseSection e p w).Tidy [] none c := by
  unfold lapseSection
  split
  · exact h
  · exact (quiet_setSection _ p .none nofun).tidy ((calm_withdrawAll _ w).tidy h)
  · next y hy => exact revokeSection_tidy hy h

theorem lapseTrack_tidy (hl : e.layout.legsAgree) (p : PortId) (x : LapseCause) (h : w.Tidy [] none c) :
    (lapseTrack p x e w).Tidy [] none c := by
  have h1 := (quiet_post _ [0] .leaseLapsed (.port p) (lapseCauseCode x) 0xFF).tidy
    (lapseSection_tidy (e := e) p ((calm_lapseClaims p w).tidy h))
  refine closeEvent_tidy hl ?_
  split
  · exact raiseHalt_tidy e _ _ _ _ h1
  · exact h1

/-! ### Sensors and lines -/

theorem entryChange_tidy (hl : e.layout.legsAgree) (a : Bool) (h : w.Tidy [] none c) : (entryChange e z a w).Tidy [] none c := by
  unfold entryChange
  split
  · exact h
  · split
    · exact headEvent_tidy hl ((quiet_setTracker w z _).tidy h)
    · exact h
  · exact (quiet_setTracker w z _).tidy h
  · exact (quiet_setTracker w z _).tidy h

theorem quiet_depart (e : Env) (z : ZoneId) (hs : (w.trains[t]).state = .cleared) : Quiet w.toTrack (depart e t z w).toTrack := by
  have hq : Quiet w.toTrack (w.modifyTrain t fun r =>
      { r with state := .running, departure := none, travel := (e.zone z).bind travelMs }).toTrack :=
    quiet_modifyTrain w t _ rfl rfl (.inr ⟨.inr (.inr (.inl hs)), .inr (.inr (.inr (.inl rfl))), nofun⟩)
  unfold depart postDeparted
  split
  · split
    · exact hq.trans (quiet_post _ _ _ _ _ _)
    all_goals exact hq
  · exact hq

theorem stopChange_tidy (hl : e.layout.legsAgree) (a : Bool) (h : w.Tidy [] none c) : (stopChange e z a w).Tidy [] none c := by
  unfold stopChange
  split
  · exact h
  · split
    · split
      · exact closeEvent_tidy hl h
      · exact h
    · split
      · next t ht =>
        have hs := List.find?_some ht
        simp only [Bool.and_eq_true, decide_eq_true_eq] at hs
        exact (quiet_depart e z hs.1).tidy h
      · exact h

theorem judgeDisagree_tidy (hl : e.layout.legsAgree) (x : Hold) (h : w.Tidy [] none c) : (judgeDisagree e z x w).Tidy [] none c := by
  have h1 := (quiet_setSupervision w z .disagree).tidy h
  unfold judgeDisagree
  cases x with
  | held => exact closeEvent_tidy hl (raiseAtZone_tidy e _ _ _ _ h1)
  | released => exact (quiet_post _ _ _ _ _ _).tidy h1

theorem feedbackChange_tidy (hl : e.layout.legsAgree) (h : w.Tidy [] none c) : (feedbackChange e z w).Tidy [] none c := by
  unfold feedbackChange
  split
  · exact h
  · split
    · exact h
    · split
      · exact h
      · exact judgeDisagree_tidy hl _ h
    · split
      · exact (quiet_setSupervision w z _).tidy h
      · exact h

theorem confirmEnds_tidy (hl : e.layout.legsAgree) (h : w.Tidy [] none c) : (confirmEnds e z w).Tidy [] none c := by
  unfold confirmEnds
  split
  · exact h
  · split
    · split
      · exact (quiet_setSupervision w z _).tidy h
      · exact judgeDisagree_tidy hl _ h
    all_goals exact h

theorem dispatchPhase_cleared {w : Track} (h : dispatchPhase w z = some (.cleared, t)) : (w.trains[t]).state = .cleared := by
  unfold dispatchPhase at h
  split at h
  · cases h
  · split at h
    · split at h
      · split at h <;> cases h
      · cases h
    · next hs =>
      split at h
      · split at h
        · cases h; exact hs
        · cases h
        · cases h
      · cases h
    · cases h

theorem takeBackCleared_tidy (hs : (w.trains[t]).state = .cleared) (h : w.Tidy [] none c) : (takeBackCleared t w).Tidy [] none c := by
  have hc := calm_removeEntries t 0 w
  have hf := h.single (.inr (.inr (.inr hs)))
  exact (quiet_postAbort _ _ _ _).tidy ((quiet_stand
    (f := fun r => { (r.mapRide fun d => { d with stalled := false }) with state := .standing, departure := none })
    (hc.live (.inr (.inr (.inl hs)))) (by rw [hc.footprint]; exact hf) rfl rfl rfl).tidy (hc.tidy h))

theorem readyChange_tidy (hl : e.layout.legsAgree) (i : ReadyId) (a : Bool) (h : w.Tidy [] none c) :
    (readyChange e i a w).Tidy [] none c := by
  have hdrop : (readyDrops e i w).Tidy [] none c := by
    unfold readyDrops
    split
    · exact h
    · split
      · exact h
      · exact closeEvent_tidy hl ((calm_abortClaimed _ _ _ w).tidy h)
      · exact closeEvent_tidy hl ((calm_abortClaimed _ _ _ w).tidy h)
      · next hp => exact closeEvent_tidy hl (takeBackCleared_tidy (dispatchPhase_cleared hp) h)
  unfold readyChange
  split
  · exact h
  · split
    · exact hdrop
    · exact h

theorem losePosition_tidy (n : SwitchId) (h : w.Tidy [] none c) : (losePosition e n w).Tidy [] none c := by
  have h1 := (quiet_applyRelease _ e).tidy ((quiet_modifySwitch w n fun s =>
    { s with state := .unknown, attempts := 0, driveStraight := false, driveDiverge := false }).tidy h)
  unfold losePosition
  dsimp only
  split
  · exact respondHalt_tidy e _ h1
  · exact h1

theorem positionChange_tidy (hl : e.layout.legsAgree) (n : SwitchId) (h : w.Tidy [] none c) : (positionChange e n w).Tidy [] none c := by
  unfold positionChange
  split
  · split
    · exact h
    · exact closeEvent_tidy hl (losePosition_tidy n h)
  · split
    · exact closeEvent_tidy hl ((quiet_arrive n w).tidy h)
    · exact h
  all_goals exact h

/-! ### Timers -/

theorem gapEnds_tidy (hl : e.layout.legsAgree) (h : w.Tidy [] none c) : (gapEnds e z w).Tidy [] none c := by
  have h1 := (quiet_setTracker w z .idle).tidy h
  unfold gapEnds
  split
  · split
    · exact h1
    · exact tailEvent_tidy hl h1
  · exact h1
  all_goals exact h

theorem limitEnds_tidy (hl : e.layout.legsAgree) (h : w.Tidy [] none c) : (limitEnds e z w).Tidy [] none c := by
  unfold limitEnds
  split
  · exact closeEvent_tidy hl (raiseAtZone_tidy e _ _ _ _ ((quiet_setTracker w z _).tidy h))
  all_goals exact h

theorem quiet_estopClear (w : Work) (x : Option Nat) : Quiet w.toTrack ({ w with estopClear := x } : Work).toTrack :=
  .of_same rfl rfl rfl rfl (claimsFrom_same rfl rfl)

theorem clearEnds_tidy (hl : e.layout.legsAgree) (h : w.Tidy [] none e.layout.committed) :
    (clearEnds e w).Tidy [] none e.layout.committed := by
  unfold clearEnds
  split
  · refine closeEvent_tidy hl ((quiet_postMode _ _ _).tidy ?_)
    have h1 : ({ w with mode := if e.layout.committed then .halted else .unconfigured } : Work).Tidy [] none e.layout.committed := by
      refine h.withMode ?_
      cases e.layout.committed with
      | true => exact ⟨nofun, nofun⟩
      | false => exact ⟨fun _ => .inl rfl, fun _ => rfl⟩
    exact (quiet_estopClear _ none).tidy h1
  · exact h

theorem calm_failMove (n : SwitchId) (q : Position) (s : Served) (w : Work) : Calm w.toTrack (failMove n q s w).toTrack := by
  have h1 := (quiet_modifySwitch w n fun s =>
    { s with state := .failed, attempts := 3, driveStraight := false, driveDiverge := false }).calm
  unfold failMove
  dsimp only
  split
  · exact (h1.trans (calm_returnToWaiting _ _)).trans (quiet_post _ _ _ _ _ _).calm
  · exact h1

theorem attemptEnds_tidy (hl : e.layout.legsAgree) (n : SwitchId) (h : w.Tidy [] none c) : (attemptEnds e n w).Tidy [] none c := by
  unfold attemptEnds
  split
  · exact h
  · split
    · split
      · exact ((quiet_modifySwitch w n _).trans (quiet_post _ _ _ _ _ _)).tidy h
      · exact closeEvent_tidy hl ((calm_failMove _ _ _ w).tidy h)
    all_goals exact h

theorem settleEnds_tidy (hl : e.layout.legsAgree) (h : w.Tidy [] none c) : (settleEnds e z w).Tidy [] none c := by
  unfold settleEnds
  split
  · next hs =>
    refine closeEval_tidy hl ((quiet_setZone w z .clear ?_).tidy h)
    rw [hs]
    rfl
  · exact h

theorem dwellEnds_tidy (hl : e.layout.legsAgree) (h : w.Tidy [] none c) : (dwellEnds e t w).Tidy [] none c := by
  unfold dwellEnds
  split
  · next hs _ => exact closeEval_tidy hl ((quiet_endDwell hl t w (.inl hs) (h.single (.inr (.inl hs)))).tidy h)
  · exact h

theorem stall_tidy (hr : (w.trains[t]).rest = some z) (h : w.Tidy [] none c) : (stall e t z w).Tidy [] none c := by
  have hf := rest_some.1 hr
  have hc := calm_removeEntries t 0 w
  have hauth : ((removeEntries t 0 w).trains[t]).authority = [] := by
    rw [removeEntries_self]
    rfl
  have hne : ((removeEntries t 0 w).trains[t]).state ≠ .absent :=
    (hc.tidy h).ne_absent (z := z) (.inl (by rw [hc.footprint, hf]; exact List.mem_singleton.2 rfl))
  have h1 := modifyTrain_tidy (f := fun r => { (r.mapRide fun d => { d with stalled := true }) with state := .standing, departure := none })
    (hc.tidy h) rfl rfl (listsAgree_of_single ((hc.footprint t).trans hf) hauth (.inl rfl)) hne fun _ _ _ _ => .inl rfl
  unfold stall
  dsimp only
  split
  · exact h1
  · exact h1

theorem windowEnds_tidy (hl : e.layout.legsAgree) (h : w.Tidy [] none c) : (windowEnds e t w).Tidy [] none c := by
  unfold windowEnds
  split
  · next hr => exact closeEvent_tidy hl (stall_tidy hr h)
  · exact h

theorem travelEnds_tidy (hl : e.layout.legsAgree) (h : w.Tidy [] none c) : (travelEnds e t w).Tidy [] none c := by
  unfold travelEnds
  split
  · exact closeEvent_tidy hl (raiseAtZone_tidy e _ _ _ _ h)
  · exact h

theorem waitEnds_tidy (hl : e.layout.legsAgree) (k : Claimant) (h : w.Tidy [] none c) : (waitEnds e k w).Tidy [] none c := by
  unfold waitEnds
  split
  · exact h
  · next d _ =>
    have h1 := (calm_withdrawClaim d w).tidy h
    split
    · refine closeEval_tidy hl ?_
      unfold postExpired
      split <;> exact h1
    · exact closeEvent_tidy hl ((quiet_setSection _ _ .none nofun).tidy h1)

theorem quiet_sampleZones (e : Env) (w : Work) : Quiet w.toTrack (sampleZones e w).toTrack := by
  refine quiet_zones w _ fun z => ?_
  rw [Fin.getElem_fin, Vector.getElem_ofFn]
  unfold Track.zoneState
  cases w.zones[z] <;> rfl

theorem estopChange_tidy (hl : e.layout.legsAgree) (a : Bool) (h : w.Tidy [] none e.layout.committed) :
    (estopChange a e w).Tidy [] none e.layout.committed := by
  have hclear : ∀ x, ({ w with estopClear := x } : Work).Tidy [] none e.layout.committed := fun x =>
    (quiet_estopClear w x).tidy h
  unfold estopChange
  split
  · split
    · exact hclear _
    · exact closeEvent_tidy hl (enterEstopped_tidy e _ _ h)
  · split
    · exact hclear _
    · exact h

end

end Sys2Proof.Machine
end

section
/-! SUPPORT. The starts, COMMIT and UNCOMMIT, and the timers of one millisecond keep zone states, footprints and authorities in
agreement (R13, R14, R15, R21, R36, R37, R74). -/

namespace Sys2Proof.Machine

/-! ### Tracks without trains -/

/-- Nobody holds a zone, and no claim is for a leg. -/
theorem tidy_of_idle {w : Track} {c : Bool} (hz : ∀ (z : ZoneId) (t : TrainId), w.zoneState z ≠ some (.reserved t) ∧ w.zoneState z ≠ some (.occupied t))
    (hf : ∀ t : TrainId, (w.trains[t]).footprint = []) (ha : ∀ t : TrainId, (w.trains[t]).authority = [])
    (hr : ∀ t : TrainId, (w.trains[t]).atRest = false) (hc : ∀ (d : Claim) (g : LegClaim), d ∈ w.claims ++ w.line → d.body ≠ .leg g)
    (hs : ∀ (p : PortId) (h : HeldSection), w.sections[p] ≠ .held h)
    (hm : (c = false → w.mode = .unconfigured ∨ w.mode = .estopped) ∧ (w.mode = .unconfigured → c = false))
    (hn : c = false → ∀ t : TrainId, (w.trains[t]).state = .absent) : w.Tidy [] none c where
  ahead z t h := by
    rw [ahead_nil (ha t)] at h
    exact absurd h List.not_mem_nil
  footprint z t h := by
    rw [hf t] at h
    exact absurd h List.not_mem_nil
  reserved z t _ h := absurd h (hz z t).1
  occupied z t _ h := absurd h (hz z t).2
  lists t := listsAgree_of_none (hf t) (ha t) (hr t)
  claims d g h hg := absurd hg (hc d g h)
  sections p h _ hh := absurd hh (hs p h)
  modes := hm
  absent := hn
  unheld _ := hs

/-- An ABSENT train has no zones and no claims. -/
theorem Track.Tidy.all_absent {w : Track} {c : Bool} (h : w.Tidy [] none c) (hn : ∀ t : TrainId, (w.trains[t]).state = .absent) :
    (∀ t : TrainId, (w.trains[t]).footprint = [] ∧ (w.trains[t]).authority = [] ∧ (w.trains[t]).atRest = false) ∧
    ∀ (d : Claim) (g : LegClaim), d ∈ w.claims ++ w.line → d.body ≠ .leg g := by
  refine ⟨fun t => ?_, fun d g hd hg => ?_⟩
  · obtain ⟨-, -, -, hno, -, -⟩ := h.lists t
    obtain ⟨hf, ha⟩ := hno (.inl (hn t))
    exact ⟨hf, ha, by unfold Train.atRest; rw [hn t]⟩
  · obtain ⟨-, -, hl⟩ := h.claims d g hd hg
    exact not_live (.inl (hn g.train)) hl

/-! ### The warm start (R36, R74, R165) -/

theorem warmMode_agrees (e : Env) (m : Mode) : (e.layout.committed = false → warmMode e m = .unconfigured ∨ warmMode e m = .estopped) ∧
    (warmMode e m = .unconfigured → e.layout.committed = false) := by
  unfold warmMode
  split
  · exact ⟨fun _ => .inr rfl, nofun⟩
  · split
    · next hc => exact ⟨fun h => absurd hc (ne_true_of_eq_false h), nofun⟩
    · next hc => exact ⟨fun _ => .inl rfl, fun _ => eq_false_of_ne_true hc⟩

theorem warmTrack_tidy (e : Env) {w : Work} (h : w.Tidy [] none e.layout.committed) :
    (warmTrack e w).Tidy [] none e.layout.committed := by
  have htrain : ∀ t : TrainId, (warmTrack e w).trains[t] = warmTrain w.trains[t] := fun t => Vector.getElem_map ..
  have hidle : ∀ t : TrainId, (warmTrain w.trains[t]).footprint = [] ∧ (warmTrain w.trains[t]).authority = [] ∧
      (warmTrain w.trains[t]).atRest = false := by
    intro t
    unfold warmTrain
    split
    · next hs =>
      obtain ⟨-, -, -, hno, -, -⟩ := h.lists t
      obtain ⟨hf, ha⟩ := hno (.inl hs)
      exact ⟨hf, ha, by unfold Train.atRest; rw [hs]⟩
    · exact ⟨rfl, rfl, rfl⟩
  refine tidy_of_idle (fun z t => ?_) (fun t => htrain t ▸ (hidle t).1) (fun t => htrain t ▸ (hidle t).2.1)
    (fun t => htrain t ▸ (hidle t).2.2) (fun d g hd => absurd hd List.not_mem_nil) (fun p x => ?_) (warmMode_agrees e w.mode) fun hc t => ?_
  · have hz : (warmTrack e w).zones[z] = (w.zones[z]).map (warmZone e z) := Vector.getElem_ofFn ..
    unfold Track.zoneState
    rw [hz]
    cases w.zones[z] with
    | none => exact ⟨nofun, nofun⟩
    | some r =>
      unfold warmZone
      dsimp only [Option.map_some]
      split <;> exact ⟨nofun, nofun⟩
  · have hp : (warmTrack e w).sections[p] = .none := Vector.getElem_replicate ..
    rw [hp]
    exact nofun
  · rw [htrain]
    unfold warmTrain
    rw [if_pos (h.absent hc t)]
    exact h.absent hc t

/-! ### COMMIT and UNCOMMIT (R13 to R15) -/

/-- A leg of the leg set passes no zone twice. -/
theorem legSet_agrees {l : Layout} (h : commitChecks l = none) : ∀ g ∈ legSet l, g.zones ≠ [] ∧ g.zones.Nodup := by
  rw [commitChecks_eq, firstFailed_none] at h
  have h2 : check2 l = none := h _ (by simp)
  have h4 : check4 l = none := h _ (by simp)
  intro g hg
  obtain ⟨-, hpos, hlen, hlast, hrun⟩ := legSet_zones hg
  obtain ⟨xs, -, ⟨-, hpath, -, -⟩, hzones, -⟩ := (mem_legSet_path h2 g).1 hg
  have hne : g.zones ≠ [] := List.ne_nil_of_length_pos hpos
  have hchain : g.zones.IsChain l.follows := hzones ▸ (path_isChain hpath).tail
  have hsplit := List.dropLast_append_getLast hne
  refine ⟨hne, ?_⟩
  rw [← hsplit] at hchain ⊢
  refine List.nodup_append'.2 ⟨nodup_of_check4 h4 hchain.left_of_append hrun (by rw [List.length_dropLast]; omega), List.nodup_singleton _,
    fun z hz hl => ?_⟩
  have hstop := (isStop_iff l _).2 (hlast _ (List.getLast?_eq_some_getLast hne))
  rw [← List.mem_singleton.1 hl] at hstop
  rw [((runZone_iff l z).1 (hrun z hz)).1] at hstop
  cases hstop

theorem commitTrack_tidy (e : Env) {w : Work} (h : w.Tidy [] none false) : (commitTrack e w).Tidy [] none true := by
  obtain ⟨ht, hc⟩ := h.all_absent (h.absent rfl)
  refine tidy_of_idle (fun z t => ?_) (fun t => (ht t).1) (fun t => (ht t).2.1) (fun t => (ht t).2.2) hc (h.unheld rfl)
    ⟨nofun, nofun⟩ nofun
  have hz : (commitTrack e w).zones[z] = (e.layout.zones[z]).map (freshZone e.layout) := Vector.getElem_map ..
  unfold Track.zoneState
  rw [hz]
  cases e.layout.zones[z] <;> exact ⟨nofun, nofun⟩

theorem uncommitTrack_tidy {w : Work} {c : Bool} (ht : anyTrain w.toTrack = false) (hs : anySection w.toTrack = false)
    (h : w.Tidy [] none c) : (uncommitTrack w).Tidy [] none false := by
  have habsent : ∀ t : TrainId, (w.trains[t]).state = .absent := fun t => by
    simp only [anyTrain, List.any_eq_false, Bool.not_eq_true', Bool.not_eq_false, decide_eq_true_eq] at ht
    simpa using ht t (List.mem_finRange t)
  have hsection : ∀ (p : PortId) (x : HeldSection), w.sections[p] ≠ .held x := fun p x hx => by
    simp only [anySection, List.any_eq_false] at hs
    have hp := hs p (List.mem_finRange p)
    rw [hx] at hp
    simp at hp
  obtain ⟨hidle, hc⟩ := h.all_absent habsent
  refine tidy_of_idle (fun z t => ?_) (fun t => (hidle t).1) (fun t => (hidle t).2.1) (fun t => (hidle t).2.2) hc hsection
    ⟨fun _ => .inl rfl, fun _ => rfl⟩ fun _ => habsent
  have hz : (uncommitTrack w).zones[z] = none := Vector.getElem_replicate ..
  unfold Track.zoneState
  rw [hz]
  exact ⟨nofun, nofun⟩

/-! ### One millisecond (R37) -/

theorem zone_tick_grip (r : Zone) : r.tick.state.grip = r.state.grip := by
  unfold Zone.tick ZoneState.tick
  cases r.state <;> rfl

theorem claim_tick_body (d : Claim) : d.tick.body = d.body := by
  unfold Claim.tick
  split <;> rfl

theorem tick_train (w : Track) (t : TrainId) : w.tick.trains[t] = (w.trains[t]).tick := Vector.getElem_map ..

theorem quiet_tick (w : Track) : Quiet w w.tick where
  mode := rfl
  zones z := by
    have hz : w.tick.zones[z] = (w.zones[z]).map Zone.tick := Vector.getElem_map ..
    unfold Track.zoneState
    rw [hz]
    cases w.zones[z] with
    | none => rfl
    | some r => exact congrArg some (zone_tick_grip r)
  footprint t := by rw [tick_train]; rfl
  authority t := by rw [tick_train]; rfl
  state t := .inl (by rw [tick_train]; rfl)
  claims d g hd _ := by
    have hm : d ∈ (w.claims ++ w.line).map Claim.tick := by
      rw [List.map_append]
      exact hd
    obtain ⟨d', hd', rfl⟩ := List.mem_map.1 hm
    exact .inl ⟨d', hd', (claim_tick_body d').symm⟩
  sections _ h hh := ⟨h, hh, rfl⟩

end Sys2Proof.Machine
end

section
/-! SUPPORT. The return of a section keeps zone states, footprints and authorities in agreement (R144 to R146), and every step does. -/

namespace Sys2Proof.Machine

/-! ### The zones of a return (R144) -/

/-- The state a judged zone takes. -/
def Judged.zoneState : Judged → ZoneState
  | .clear => .clear
  | .occupied t => .occupied t
  | .unknown _ => .unknown

theorem returnZone_eq (p : PortId) (q : ZoneId × Judged) (w : Work) :
    ∃ ps, returnZone p q w = { w.setZone q.1 q.2.zoneState with posts := ps } := by
  unfold returnZone
  cases q.2 <;> exact ⟨_, rfl⟩

theorem returnZone_zoneState (p : PortId) (q : ZoneId × Judged) (w : Work) (y : ZoneId) :
    (returnZone p q w).zoneState y = if q.1 = y then (w.zoneState y).map fun _ => q.2.zoneState else w.zoneState y := by
  obtain ⟨ps, h⟩ := returnZone_eq p q w
  rw [h]
  exact setZone_zoneState w q.1 y q.2.zoneState

theorem returnZones_zoneState (p : PortId) (j : ZoneId → Judged) (zs : List ZoneId) (w : Work) (y : ZoneId) :
    ((zs.map fun z => (z, j z)).foldl (fun w q => returnZone p q w) w).zoneState y =
      if y ∈ zs then (w.zoneState y).map fun _ => (j y).zoneState else w.zoneState y := by
  induction zs generalizing w with
  | nil => simp
  | cons z zs ih =>
    rw [List.map_cons, List.foldl_cons, ih, returnZone_zoneState]
    by_cases h : z = y
    · subst h
      cases w.zoneState z <;> simp
    · simp [h, Ne.symm h]

/-- Zones taken back change zone records and notices alone. -/
theorem returnZones_frame (p : PortId) (qs : List (ZoneId × Judged)) (w : Work) :
    { qs.foldl (fun w q => returnZone p q w) w with zones := w.zones, posts := w.posts } = w :=
  foldl_keeps (fun v => { v with zones := w.zones, posts := w.posts }) (fun w q => returnZone p q w)
    (fun v q => by obtain ⟨ps, h⟩ := returnZone_eq p q v; rw [h]; rfl) qs w

section
variable {e : Env} {w : Track} {p : PortId} {ds : List Declaration} {zs : List ZoneId} {t : TrainId} {z : ZoneId}

theorem judgeZone_occupied (h : judgeZone e w p ds z = .occupied t) :
    (z, some t) ∈ ds ∧ declaredTwice ds t = false ∧ declarable w p t = true := by
  unfold judgeZone at h
  split at h
  · cases h
  · split at h
    · cases h
    · split at h <;> cases h
  · next u hd =>
    split at h
    · cases h
    · split at h
      · cases h
      · next hdecl =>
        split at h
        · cases h
        · next htwice =>
          cases h
          obtain ⟨d, hf, hu⟩ := Option.map_eq_some_iff.1 hd
          have hz := List.find?_some hf
          rw [decide_eq_true_eq] at hz
          exact ⟨by rw [← hz, ← hu]; exact List.mem_of_find?_eq_some hf, eq_false_of_ne_true htwice, by simpa using hdecl⟩

/-- A train is validly declared in one zone. -/
theorem judgeZone_unique {y : ZoneId} (h : judgeZone e w p ds z = .occupied t) (k : judgeZone e w p ds y = .occupied t) : y = z := by
  obtain ⟨hz, htwice, -⟩ := judgeZone_occupied h
  obtain ⟨hy, -, -⟩ := judgeZone_occupied k
  simp only [declaredTwice, decide_eq_false_iff_not, Nat.not_lt] at htwice
  have hz' : (z, some t) ∈ ds.filter fun d => decide (d.2 = some t) := List.mem_filter.2 ⟨hz, by simp⟩
  have hy' : (y, some t) ∈ ds.filter fun d => decide (d.2 = some t) := List.mem_filter.2 ⟨hy, by simp⟩
  generalize ds.filter (fun d => decide (d.2 = some t)) = xs at htwice hz' hy'
  match xs, htwice with
  | [], _ => exact absurd hz' List.not_mem_nil
  | [x], _ =>
    have hxy := (List.mem_singleton.1 hy').trans (List.mem_singleton.1 hz').symm
    exact congrArg Prod.fst hxy

theorem validZone_some (h : validZone (judgeAll e w p ds zs) t = some z) : z ∈ zs ∧ judgeZone e w p ds z = .occupied t := by
  obtain ⟨q, hq, rfl⟩ := Option.map_eq_some_iff.1 h
  have hj := List.find?_some hq
  rw [decide_eq_true_eq] at hj
  obtain ⟨y, hy, rfl⟩ := List.mem_map.1 (List.mem_of_find?_eq_some hq)
  exact ⟨hy, hj⟩

theorem validZone_of_occupied (hz : z ∈ zs) (h : judgeZone e w p ds z = .occupied t) :
    validZone (judgeAll e w p ds zs) t = some z := by
  cases hv : validZone (judgeAll e w p ds zs) t with
  | some y => rw [judgeZone_unique h (validZone_some hv).2]
  | none =>
    have hnone := List.find?_eq_none.1 (Option.map_eq_none_iff.1 hv) (z, judgeZone e w p ds z) (List.mem_map_of_mem hz)
    exact absurd (decide_eq_true h) hnone

theorem declarable_iff (h : declarable w p t = true) : (w.trains[t]).state = .manual ∨ (w.trains[t]).state = .absent := by
  unfold declarable at h
  split at h
  · next hs => exact .inl hs
  · next hs => exact .inr hs
  · cases h

end

/-! ### The trains of a return (R145) -/

/-- What a return makes of one train's record. -/
def returnedRecord (e : Env) (p : PortId) (ds : List Declaration) (js : List (ZoneId × Judged)) (t : TrainId) (r : Train) : Train :=
  match validZone js t with
  | some z => returnedTrain e r z
  | none =>
    if r.state = .manual ∧ r.sectionPort = some p then
      if ds.any fun d => decide (d.2 = some t) then r.toLost else Train.gone
    else r

section
variable (e : Env) (p : PortId) (ds : List Declaration) (js : List (ZoneId × Judged))

theorem returnTrain_eq (t : TrainId) (w : Work) :
    ∃ ps, returnTrain e p ds js t w = { w.modifyTrain t (returnedRecord e p ds js t) with posts := ps } := by
  unfold returnTrain
  cases hv : validZone js t with
  | some z =>
    refine ⟨w.posts, ?_⟩
    have hr : returnedRecord e p ds js t = fun r => returnedTrain e r z := by
      funext r
      unfold returnedRecord
      rw [hv]
    rw [hr]
    rfl
  | none =>
    have hr : ∀ r : Train, returnedRecord e p ds js t r = if r.state = .manual ∧ r.sectionPort = some p then
        if ds.any fun d => decide (d.2 = some t) then r.toLost else Train.gone else r := fun r => by
      unfold returnedRecord
      rw [hv]
    dsimp only
    split
    · next hm =>
      split
      · next hd =>
        refine ⟨w.posts, ?_⟩
        unfold Work.modifyTrain
        rw [hr, if_pos hm, if_pos hd]
        rfl
      · next hd =>
        refine ⟨((w.setTrain t Train.gone).post [0, p] .trainRemoved (.train t)).posts, ?_⟩
        unfold Work.modifyTrain
        rw [hr, if_pos hm, if_neg hd]
        rfl
    · next hm =>
      refine ⟨w.posts, ?_⟩
      rw [modifyTrain_same_record w t _ ((hr _).trans (if_neg hm))]

theorem returnTrain_train (t u : TrainId) (w : Work) : (returnTrain e p ds js t w).trains[u] =
    if u = t then returnedRecord e p ds js u w.trains[u] else w.trains[u] := by
  obtain ⟨ps, h⟩ := returnTrain_eq e p ds js t w
  rw [h]
  split
  · next e =>
    subst e
    exact modifyTrain_self _ _ _
  · next hu => exact modifyTrain_other _ _ hu

theorem returnTrains_train (ts : List TrainId) (hn : ts.Nodup) (w : Work) (u : TrainId) :
    (ts.foldl (fun w t => returnTrain e p ds js t w) w).trains[u] =
      if u ∈ ts then returnedRecord e p ds js u w.trains[u] else w.trains[u] := by
  induction ts generalizing w with
  | nil => rw [if_neg List.not_mem_nil]; rfl
  | cons t ts ih =>
    obtain ⟨ht, hts⟩ := List.nodup_cons.1 hn
    rw [List.foldl_cons, ih hts, returnTrain_train]
    by_cases hu : u = t
    · subst hu
      rw [if_neg ht, if_pos rfl, if_pos (List.mem_cons_self ..)]
    · simp [hu]

/-- Trains taken back change train records and notices alone. -/
theorem returnTrains_frame (ts : List TrainId) (w : Work) :
    { ts.foldl (fun w t => returnTrain e p ds js t w) w with trains := w.trains, posts := w.posts } = w :=
  foldl_keeps (fun v => { v with trains := w.trains, posts := w.posts }) (fun w t => returnTrain e p ds js t w)
    (fun v t => by obtain ⟨ps, h⟩ := returnTrain_eq e p ds js t v; rw [h]; rfl) ts w

end

theorem returnedTrain_parts (e : Env) (z : ZoneId) {r : Train} (ha : r.authority = []) :
    (returnedTrain e r z).footprint = [z] ∧ (returnedTrain e r z).authority = [] ∧
      ((returnedTrain e r z).state = .standing ∨ (returnedTrain e r z).state = .stored) := by
  unfold returnedTrain
  split
  · split
    · exact ⟨rfl, ha, .inl rfl⟩
    · exact ⟨rfl, ha, .inr rfl⟩
  · exact ⟨rfl, rfl, .inr rfl⟩

section
variable {e : Env} {p : PortId} {ds : List Declaration} {zs : List ZoneId} {w : Work} {c : Bool} {t : TrainId}

theorem returnedRecord_valid {z : ZoneId} (h : w.Tidy [] none c) (hv : validZone (judgeAll e w.toTrack p ds zs) t = some z) :
    (returnedRecord e p ds (judgeAll e w.toTrack p ds zs) t w.trains[t]).footprint = [z] ∧
    (returnedRecord e p ds (judgeAll e w.toTrack p ds zs) t w.trains[t]).authority = [] ∧
    (returnedRecord e p ds (judgeAll e w.toTrack p ds zs) t w.trains[t]).listsAgree ∧ ¬ (w.trains[t]).live ∧
    (w.trains[t]).footprint = [] ∧ (w.trains[t]).authority = [] := by
  obtain ⟨-, hj⟩ := validZone_some hv
  obtain ⟨-, -, hd⟩ := judgeZone_occupied hj
  have hs := declarable_iff hd
  obtain ⟨-, -, -, hno, -, -⟩ := h.lists t
  obtain ⟨hf, ha⟩ := hno (hs.elim (fun e => .inr (.inl e)) .inl)
  have hr : returnedRecord e p ds (judgeAll e w.toTrack p ds zs) t w.trains[t] = returnedTrain e w.trains[t] z := by
    unfold returnedRecord
    rw [hv]
  obtain ⟨h1, h2, h3⟩ := returnedTrain_parts e z ha
  rw [hr]
  exact ⟨h1, h2, listsAgree_of_single h1 h2 h3, not_live (hs.elim (fun e => .inr (.inr (.inl e))) .inl), hf, ha⟩

/-- A train that no declaration places keeps what zones it has: a MANUAL one of the section has none. -/
theorem returnedRecord_other (h : w.Tidy [] none c) (hv : validZone (judgeAll e w.toTrack p ds zs) t = none) :
    (returnedRecord e p ds (judgeAll e w.toTrack p ds zs) t w.trains[t]).footprint = (w.trains[t]).footprint ∧
    (returnedRecord e p ds (judgeAll e w.toTrack p ds zs) t w.trains[t]).authority = (w.trains[t]).authority ∧
    (returnedRecord e p ds (judgeAll e w.toTrack p ds zs) t w.trains[t]).listsAgree ∧
    ((w.trains[t]).live → returnedRecord e p ds (judgeAll e w.toTrack p ds zs) t w.trains[t] = w.trains[t]) := by
  have hr : returnedRecord e p ds (judgeAll e w.toTrack p ds zs) t w.trains[t] =
      if (w.trains[t]).state = .manual ∧ (w.trains[t]).sectionPort = some p then
        if ds.any fun d => decide (d.2 = some t) then (w.trains[t]).toLost else Train.gone
      else w.trains[t] := by
    unfold returnedRecord
    rw [hv]
  rw [hr]
  split
  · next hm =>
    obtain ⟨-, -, -, hno, -, -⟩ := h.lists t
    obtain ⟨hf, ha⟩ := hno (.inr (.inl hm.1))
    rw [hf, ha]
    have hdead : ∀ r : Train, (w.trains[t]).live → r = w.trains[t] := fun _ hl => absurd hl (not_live (.inr (.inr (.inl hm.1))))
    split
    · exact ⟨rfl, rfl, listsAgree_of_none rfl rfl rfl, hdead _⟩
    · exact ⟨rfl, rfl, listsAgree_of_none rfl rfl rfl, hdead _⟩
  · exact ⟨rfl, rfl, h.lists t, fun _ => rfl⟩

/-- The zones and the trains of a section taken back together agree. -/
theorem returned_tidy {y : HeldSection} {v : Work} (h : w.Tidy [] none c) (hy : w.sections[p] = .held y)
    (hm : v.mode = w.mode) (hcl : v.claims = w.claims) (hli : v.line = w.line) (hs : v.sections = w.sections)
    (hz : ∀ z, v.zoneState z = if z ∈ y.zones then (w.zoneState z).map fun _ => (judgeZone e w.toTrack p ds z).zoneState else w.zoneState z)
    (ht : ∀ t : TrainId, v.trains[t] = returnedRecord e p ds (judgeAll e w.toTrack p ds y.zones) t w.trains[t]) :
    v.Tidy [] (some p) c := by
  have hc : c = true := by
    cases c with
    | true => rfl
    | false => exact absurd hy (h.unheld rfl p y)
  subst hc
  obtain ⟨hfree, hother⟩ := h.section_zones hy
  have hin : ∀ z ∈ y.zones, v.zoneState z = some (judgeZone e w.toTrack p ds z).zoneState := fun z hm => by
    rw [hz, if_pos hm, h.sections p y nofun hy z hm]
    rfl
  have hout : ∀ z, z ∉ y.zones → v.zoneState z = w.zoneState z := fun z hm => by rw [hz, if_neg hm]
  have hahead : ∀ t : TrainId, (v.trains[t]).ahead = (w.trains[t]).ahead := fun t => by
    unfold Train.ahead
    rw [ht]
    cases hv : validZone (judgeAll e w.toTrack p ds y.zones) t with
    | some z =>
      obtain ⟨-, ha, -, -, -, hwa⟩ := returnedRecord_valid h hv
      rw [ha, hwa]
    | none =>
      obtain ⟨-, ha, -, -⟩ := returnedRecord_other h hv
      rw [ha]
  refine
    { ahead := fun z t hm' => ?_, footprint := fun z t hm' => ?_, reserved := fun z t _ hr => ?_, occupied := fun z t _ ho => ?_
      lists := fun t => ?_, claims := fun d g hd hg => ?_, sections := fun q x hq hx z hm' => ?_, modes := hm ▸ h.modes
      absent := nofun, unheld := nofun }
  · rw [hahead] at hm'
    have hr := h.ahead z t hm'
    rw [hout z fun hin' => (hfree z t hin').1 hr]
    exact hr
  · rw [ht] at hm'
    cases hv : validZone (judgeAll e w.toTrack p ds y.zones) t with
    | some x =>
      obtain ⟨hf, -⟩ := returnedRecord_valid h hv
      obtain ⟨hx, hj⟩ := validZone_some hv
      rw [hf] at hm'
      rw [List.mem_singleton.1 hm', hin x hx, hj]
      rfl
    | none =>
      obtain ⟨hf, -⟩ := returnedRecord_other h hv
      rw [hf] at hm'
      have ho := h.footprint z t hm'
      rw [hout z fun hin' => (hfree z t hin').2 ho]
      exact ho
  · by_cases hm' : z ∈ y.zones
    · rw [hin z hm'] at hr
      cases hj : judgeZone e w.toTrack p ds z <;> rw [hj] at hr <;> cases hr
    · rw [hahead]
      exact h.reserved z t List.not_mem_nil (hout z hm' ▸ hr)
  · by_cases hm' : z ∈ y.zones
    · have hj : judgeZone e w.toTrack p ds z = .occupied t := by
        rw [hin z hm'] at ho
        cases hj : judgeZone e w.toTrack p ds z with
        | occupied u =>
          rw [hj] at ho
          cases ho
          rfl
        | clear => rw [hj] at ho; cases ho
        | unknown r => rw [hj] at ho; cases ho
      obtain ⟨hf, -⟩ := returnedRecord_valid h (validZone_of_occupied hm' hj)
      rw [ht, hf]
      exact List.mem_singleton.2 rfl
    · have hw := h.occupied z t List.not_mem_nil (hout z hm' ▸ ho)
      rw [ht]
      cases hv : validZone (judgeAll e w.toTrack p ds y.zones) t with
      | some x =>
        obtain ⟨-, -, -, -, hwf, -⟩ := returnedRecord_valid h hv
        rw [hwf] at hw
        exact absurd hw List.not_mem_nil
      | none =>
        obtain ⟨hf, -⟩ := returnedRecord_other h hv
        rw [hf]
        exact hw
  · rw [ht]
    cases hv : validZone (judgeAll e w.toTrack p ds y.zones) t with
    | some x =>
      obtain ⟨-, -, hl, -⟩ := returnedRecord_valid h hv
      exact hl
    | none =>
      obtain ⟨-, -, hl, -⟩ := returnedRecord_other h hv
      exact hl
  · rw [hcl, hli] at hd
    obtain ⟨hne, hnd, hlive⟩ := h.claims d g hd hg
    refine ⟨hne, hnd, ?_⟩
    rw [ht]
    cases hv : validZone (judgeAll e w.toTrack p ds y.zones) g.train with
    | some x =>
      obtain ⟨-, -, -, hdead, -⟩ := returnedRecord_valid h hv
      exact absurd hlive hdead
    | none =>
      obtain ⟨-, -, -, hsame⟩ := returnedRecord_other h hv
      rw [hsame hlive]
      exact hlive
  · rw [hs] at hx
    rw [hout z (hother q x hq hx z hm')]
    exact h.sections q x nofun hx z hm'

/-- Trains that stand act on their steps one after the other. -/
theorem quiet_actAll (hl : e.layout.legsAgree) (ts : List TrainId)
    (ht : ∀ t ∈ ts, (w.trains[t]).live ∧ ∃ z, (w.trains[t]).footprint = [z]) :
    Quiet w.toTrack (ts.foldl (fun w t => actOnStep e t w) w).toTrack := by
  induction ts generalizing w with
  | nil => exact .refl _
  | cons t ts ih =>
    obtain ⟨hlive, hf⟩ := ht t (List.mem_cons_self ..)
    have hq := quiet_actOnStep hl t w hlive hf
    refine hq.trans (ih fun u hu => ?_)
    obtain ⟨hlu, hfu⟩ := ht u (List.mem_cons_of_mem _ hu)
    exact ⟨hq.live hlu, by rw [hq.footprint]; exact hfu⟩

/-- The zones and the trains of a section are taken back. -/
theorem takenBack_tidy {y : HeldSection} (hy : w.sections[p] = .held y) (h : w.Tidy [] none c) :
    (trainIds.foldl (fun v t => returnTrain e p ds (judgeAll e w.toTrack p ds y.zones) t v)
      ((judgeAll e w.toTrack p ds y.zones).foldl (fun v q => returnZone p q v) w)).Tidy [] (some p) c := by
  have hframe1 := returnZones_frame p (judgeAll e w.toTrack p ds y.zones) w
  have hzone : ∀ z, ((judgeAll e w.toTrack p ds y.zones).foldl (fun v q => returnZone p q v) w).zoneState z =
      if z ∈ y.zones then (w.zoneState z).map fun _ => (judgeZone e w.toTrack p ds z).zoneState else w.zoneState z :=
    returnZones_zoneState p (judgeZone e w.toTrack p ds) y.zones w
  generalize (judgeAll e w.toTrack p ds y.zones).foldl (fun v q => returnZone p q v) w = w1 at hframe1 hzone ⊢
  have hframe2 := returnTrains_frame e p ds (judgeAll e w.toTrack p ds y.zones) trainIds w1
  have htrain := returnTrains_train e p ds (judgeAll e w.toTrack p ds y.zones) trainIds (List.nodup_finRange 8) w1
  generalize trainIds.foldl (fun v t => returnTrain e p ds (judgeAll e w.toTrack p ds y.zones) t v) w1 = w2 at hframe2 htrain ⊢
  have hzones : w2.zones = w1.zones := (congrArg (fun v : Work => v.zones) hframe2 :)
  have htrains : w1.trains = w.trains := (congrArg (fun v : Work => v.trains) hframe1 :)
  have hmode : w2.mode = w.mode := (congrArg (fun v : Work => v.mode) hframe2).trans (congrArg (fun v : Work => v.mode) hframe1 :)
  have hclaims : w2.claims = w.claims := (congrArg (fun v : Work => v.claims) hframe2).trans (congrArg (fun v : Work => v.claims) hframe1 :)
  have hline : w2.line = w.line := (congrArg (fun v : Work => v.line) hframe2).trans (congrArg (fun v : Work => v.line) hframe1 :)
  have hsections : w2.sections = w.sections :=
    (congrArg (fun v : Work => v.sections) hframe2).trans (congrArg (fun v : Work => v.sections) hframe1 :)
  refine returned_tidy (e := e) (ds := ds) h hy hmode hclaims hline hsections (fun z => ?_) fun t => ?_
  · rw [← hzone z]
    unfold Track.zoneState
    rw [hzones]
  · rw [htrain, if_pos (show t ∈ trainIds from List.mem_finRange t), htrains]

theorem returnSection_tidy (hl : e.layout.legsAgree) {y : HeldSection} (hy : w.sections[p] = .held y) (h : w.Tidy [] none c) :
    (returnSection e p y ds w).Tidy [] none c := by
  have h2 := takenBack_tidy (e := e) (ds := ds) hy h
  have h3 := setSection_tidy (s := .none) ((Quiet.foldl (fun v n => quiet_modifySwitch v n leaveSection) y.switches _).tidy h2) nofun
  have h4 := (quiet_applyRelease _ e).tidy h3
  unfold returnSection
  refine (quiet_actAll hl _ fun t ht => ?_).tidy h4
  have hs := List.of_mem_filter ht
  simp only [Bool.and_eq_true, decide_eq_true_eq] at hs
  exact ⟨.inl hs.2, h4.single (.inr (.inl hs.2))⟩

/-! ### Every step -/

theorem event_tidy {s : State} {f : Env → Work → Work} (hf : Event s f) (hl : s.layout.legsAgree)
    (h : s.track.Tidy [] none s.layout.committed) : (f s.env s.work).Tidy [] none s.layout.committed := by
  have hw : s.work.Tidy [] none s.layout.committed := h
  cases hf with
  | operating hm => exact enterOperating_tidy hl (h.committed_of_mode hm.1 hm.2) hw
  | standby hm => exact enterStandby_tidy hl (h.committed_of_mode hm.1 hm.2) hw
  | halted hm => exact enterHalted_tidy hl (h.committed_of_mode hm.1 hm.2) hw
  | place hc ht hz hq => exact place_tidy hl hc ht hz hq hw
  | assign _ ht => exact assign_tidy hl _ ht hw
  | retireStore ht => exact retireStore_tidy hl ht hw
  | retireRemove ht => exact retireRemove_tidy hl ht hw
  | assertEmpty hz => exact assertEmpty_tidy hl hz hw
  | proceed ht => exact proceed_tidy hl ht hw
  | breakLoop t => exact (quiet_modifyTrain_other s.work t Train.breakLoop rfl rfl rfl).tidy hw
  | resetSwitch n => exact closeEvent_tidy hl ((quiet_abandonMove _ n _).tidy hw)
  | legOrder o wait ht => exact legOrder_tidy hl o wait ht hw
  | cancelDispatch _ => exact closeEval_tidy hl ((calm_abortClaimed _ _ _ _).tidy hw)
  | requestSection zs wait _ => exact requestSection_tidy hl _ zs wait hw
  | cancelSection _ => exact cancelSection_tidy hl _ hw
  | takeReturn ds hx => exact closeEvent_tidy hl (returnSection_tidy hl hx hw)
  | setHold z y hx => exact (quiet_setHold (w := s.work) z y hx).tidy hw
  | moveFor n q _ => exact moveFor_tidy hl _ n q hw
  | lapse p x => exact lapseTrack_tidy hl p x hw
  | resumed p => exact hw
  | entry z a => exact entryChange_tidy hl a hw
  | stop z a => exact stopChange_tidy hl a hw
  | feedback z => exact feedbackChange_tidy hl hw
  | ready r a => exact readyChange_tidy hl r a hw
  | position n => exact positionChange_tidy hl n hw
  | arrival n => exact closeEvent_tidy hl ((quiet_arrive n _).tidy hw)
  | gap z => exact gapEnds_tidy hl hw
  | limit z => exact limitEnds_tidy hl hw
  | confirm z => exact confirmEnds_tidy hl hw
  | clear => exact clearEnds_tidy (e := s.env) hl hw
  | move n => exact attemptEnds_tidy hl n hw
  | settle z => exact settleEnds_tidy hl hw
  | dwell t => exact dwellEnds_tidy hl hw
  | window t => exact windowEnds_tidy hl hw
  | travel t => exact travelEnds_tidy hl hw
  | wait k => exact waitEnds_tidy hl k hw
  | sample => exact (quiet_sampleZones _ _).tidy hw

end

/-- The agreement, told of layout and track. -/
def State.tidy (s : State) : Prop := s.layout.legsAgree ∧ s.track.Tidy [] none s.layout.committed

theorem tidy_congr {s t : State} (hl : t.layout = s.layout) (ht : t.track = s.track) (h : s.tidy) : t.tidy := by
  unfold State.tidy
  rw [hl, ht]
  exact h

theorem tidy_rules : StepRules State.tidy where
  frame hl _ ht h := tidy_congr hl ht h
  cold s _ := tidy_congr (s := State.reset) rfl rfl ((trackAgrees_iff _).1 reset_trackAgrees)
  warm s h := by
    obtain ⟨hl, hw⟩ := h
    obtain ⟨e, hlayout, htrack⟩ : ∃ e : Env, e.layout = s.layout ∧ (warmStart s).track = (warmTrack e s.work).toTrack := ⟨_, rfl, rfl⟩
    refine ⟨hl, ?_⟩
    rw [htrack]
    exact hlayout ▸ warmTrack_tidy e (w := s.work) (hlayout.symm ▸ hw)
  load s l hc hlc hlegs h := ⟨fun g hg => h.1 g (hlegs ▸ hg), hlc.trans hc.symm ▸ h.2⟩
  commit s hc _ hchecks h := ⟨legSet_agrees hchecks, commitTrack_tidy _ (w := s.work) (hc ▸ h.2)⟩
  uncommit s _ _ ht hs h := ⟨fun g hg => absurd hg List.not_mem_nil, uncommitTrack_tidy (w := s.work) ht hs h.2⟩
  input _ _ _ _ h := tidy_congr rfl rfl h
  estop s k a _ h := ⟨h.1, estopChange_tidy (e := (s.setInput (.estop k) a).env) h.1 a (w := (s.setInput (.estop k) a).work) h.2⟩
  tick s _ h := by
    obtain ⟨hl, hw⟩ := h
    unfold State.tidy
    rw [tick_layout, tick_track]
    exact ⟨hl, (quiet_tick s.track).tidy hw⟩
  event s f hf h := ⟨h.1, event_tidy hf h.1 h.2⟩

end Sys2Proof.Machine

namespace Sys2Proof.Proofs
open Sys2Proof.Machine

/-- Settles O59: what a step can do, and that each of it keeps zone states, footprints and authorities in agreement; what agrees
leaves no zone to two trains. -/
theorem noTwoTrainsShareAZone : Obligations.NoTwoTrainsShareAZone := by
  refine ⟨fun s t hs ht => (trackAgrees_iff t).2 (tidy_rules.kept s t ((trackAgrees_iff s).1 hs) ht), fun s hs => ?_⟩
  obtain ⟨hz, -⟩ := hs
  exact zonesAgree_noneShared hz

end Sys2Proof.Proofs
end

section
/-! SUPPORT. The sampler by line, the inputs that have an owner, and what an input reads (R37 to R40). -/

namespace Sys2Proof.Machine

/-! ### One sample of a line (R38, R39) -/

section
variable {l : Layout} {i : InputId} {x : Line}

theorem sampleLine_established (h : x.established = true) : sampleLine l i x = sampleEstablished (hasOwner l i) x := if_pos h

theorem sampleLine_unestablished (h : x.established = false) :
    sampleLine l i x = sampleUnestablished (hasOwner l i) (wireLevel l i (safeActive i)) x :=
  if_neg (by rw [h]; exact Bool.false_ne_true)

theorem sampleEstablished_equal {o : Bool} (hp : x.pin = x.level) : sampleEstablished o x = { x with count := 0 } := if_pos hp

theorem sampleEstablished_counts {o : Bool} (hp : x.pin ≠ x.level) (hc : x.count < 2) :
    sampleEstablished o x = { x with count := x.count + 1 } := by
  unfold sampleEstablished
  rw [if_neg hp, if_pos hc]

theorem sampleEstablished_changes {o : Bool} (hp : x.pin ≠ x.level) (hc : 2 ≤ x.count) :
    sampleEstablished o x = { x with level := x.pin, count := 0, due := o } := by
  unfold sampleEstablished
  rw [if_neg hp, if_neg (Nat.not_lt.2 hc)]

theorem sampleUnestablished_begins {o f : Bool} (h : x.count = 0 ∨ x.pin ≠ x.last) :
    sampleUnestablished o f x = { x with last := x.pin, count := 1 } := if_pos h

theorem sampleUnestablished_counts {o f : Bool} (h0 : x.count ≠ 0) (hp : x.pin = x.last) (hc : x.count < 2) :
    sampleUnestablished o f x = { x with count := x.count + 1 } := by
  unfold sampleUnestablished
  rw [if_neg (not_or.2 ⟨h0, not_not.2 hp⟩), if_pos hc]

theorem sampleUnestablished_establishes {o f : Bool} (hp : x.pin = x.last) (hc : 2 ≤ x.count) :
    sampleUnestablished o f x =
      { x with established := true, level := x.pin, count := 0, due := o && decide (x.pin ≠ f) } := by
  unfold sampleUnestablished
  rw [if_neg (not_or.2 ⟨by omega, not_not.2 hp⟩), if_neg (Nat.not_lt.2 hc)]

end

theorem inputLine_tick (s : State) (i : InputId) : inputLine s.tick.inputs i = sampleLine s.layout i (inputLine s.inputs i) := by
  rw [tick_inputs, inputLine_sample]

/-! ### Owners (R40) -/

/-- A READY input is one that a STATION zone names. -/
theorem readyZone_isSome_iff (l : Layout) (i : ReadyId) : (readyZone l i).isSome = true ↔
    ∃ (z : ZoneId) (r : ZoneLayout), l.zones[z] = some r ∧ r.kind = .station ∧ r.ready = some i := by
  unfold readyZone zoneIds
  rw [List.find?_isSome]
  refine exists_congr fun z => ?_
  rw [and_iff_right (List.mem_finRange z)]
  cases l.zones[z] <;> simp

theorem hasOwner_entry_iff (l : Layout) (z : ZoneId) : hasOwner l (.entry z) = true ↔ l.committed = true ∧ l.zones[z] ≠ none :=
  Bool.and_eq_true_iff.trans (and_congr_right fun _ => defines_iff l z)

theorem hasOwner_stop_iff (l : Layout) (z : ZoneId) : hasOwner l (.stop z) = true ↔ l.committed = true ∧ l.stoppableZone z :=
  Bool.and_eq_true_iff.trans (and_congr_right fun _ => isStop_iff l z)

theorem hasOwner_feedback_iff (l : Layout) (z : ZoneId) :
    hasOwner l (.feedback z) = true ↔ l.committed = true ∧ l.stoppableZone z := hasOwner_stop_iff l z

theorem hasOwner_position_iff (l : Layout) (n : SwitchId) (q : Position) :
    hasOwner l (.position n q) = true ↔ l.committed = true ∧ l.switches[n] ≠ none :=
  Bool.and_eq_true_iff.trans (and_congr_right fun _ => Option.isSome_iff_ne_none)

theorem hasOwner_ready_iff (l : Layout) (i : ReadyId) : hasOwner l (.ready i) = true ↔
    l.committed = true ∧ ∃ (z : ZoneId) (r : ZoneLayout), l.zones[z] = some r ∧ r.kind = .station ∧ r.ready = some i :=
  Bool.and_eq_true_iff.trans (and_congr_right fun _ => readyZone_isSome_iff l i)

/-! ### Levels (R37, R39) -/

section
variable {l : Layout} {x : Inputs} {i : InputId}

theorem inputActive_established (h : (inputLine x i).established = true) :
    inputActive l x i = true ↔ (inputLine x i).level = activeHigh l i := by
  unfold inputActive
  rw [if_pos h, beq_iff_eq]

theorem inputActive_unestablished (h : (inputLine x i).established = false) : inputActive l x i = safeActive i :=
  if_neg (by rw [h]; exact Bool.false_ne_true)

theorem safeActive_iff (i : InputId) :
    safeActive i = true ↔ (∃ z, i = .entry z) ∨ (∃ z, i = .stop z) ∨ ∃ k, i = .estop k := by
  cases i <;> simp [safeActive]

theorem inputSeen_of_not_due (h : (inputLine x i).due = false) : inputSeen l x i = inputActive l x i := by
  unfold inputSeen
  rw [h, Bool.bne_false]

theorem inputSeen_of_due (h : (inputLine x i).due = true) : inputSeen l x i = !inputActive l x i := by
  unfold inputSeen
  rw [h, Bool.bne_true]

end

section
variable {l : Layout} {z : ZoneId}

/-- Without a record in service the sensors of a zone are active high. -/
theorem activeHigh_default (h : l.committed = false ∨ l.zones[z] = none) :
    activeHigh l (.entry z) = true ∧ activeHigh l (.stop z) = true := by
  unfold activeHigh
  rcases h with h | h <;> simp only [h, Option.map_none, Option.bind_none, Option.getD_none, ite_self, Bool.false_eq_true,
    if_false, and_self]

theorem activeHigh_entry {r : ZoneLayout} (hc : l.committed = true) (hz : l.zones[z] = some r) :
    activeHigh l (.entry z) = r.entryHigh := by
  unfold activeHigh
  dsimp only
  rw [if_pos hc, hz]
  rfl

theorem activeHigh_stop {r : ZoneLayout} {b : Bool} (hc : l.committed = true) (hz : l.zones[z] = some r)
    (hb : r.stopHigh = some b) : activeHigh l (.stop z) = b := by
  unfold activeHigh
  dsimp only
  rw [if_pos hc, hz, Option.bind_some, hb]
  rfl

end

end Sys2Proof.Machine

namespace Sys2Proof.Proofs
open Sys2Proof.Machine

/-- Settles O4: one sample by whether the line is established, the owners by their records, the levels by input. -/
theorem samplerAndInputLevels : Obligations.SamplerAndInputLevels := by
  refine ⟨?_, ?_, ?_⟩
  · intro s i x y owned
    have hy : y = sampleLine s.layout i x := inputLine_tick s i
    refine ⟨fun h hp => ?_, fun h hp hc => ?_, fun h hp hc => ?_, fun h hb => ?_, fun h h0 hp hc => ?_, fun h hp hc => ?_⟩
    · rw [hy, sampleLine_established h, sampleEstablished_equal hp]
    · rw [hy, sampleLine_established h, sampleEstablished_counts hp hc]
    · rw [hy, sampleLine_established h, sampleEstablished_changes hp hc]
    · rw [hy, sampleLine_unestablished h, sampleUnestablished_begins hb]
    · rw [hy, sampleLine_unestablished h, sampleUnestablished_counts h0 hp hc]
    · rw [hy, sampleLine_unestablished h, sampleUnestablished_establishes hp hc]
  · exact fun l => ⟨hasOwner_entry_iff l, hasOwner_stop_iff l, hasOwner_feedback_iff l, hasOwner_position_iff l,
      hasOwner_ready_iff l, fun _ => rfl⟩
  · exact fun l x i => ⟨inputActive_established, fun h => inputActive_unestablished (l := l) h ▸ safeActive_iff i,
      inputSeen_of_not_due, inputSeen_of_due, fun _ => rfl, fun _ _ => rfl, fun _ => rfl, fun _ => rfl,
      fun _ => activeHigh_default, fun _ _ => activeHigh_entry, fun _ _ _ => activeHigh_stop⟩

end Sys2Proof.Proofs
end

section
/-! SUPPORT. The passage trackers (R42 to R46): what each tracker makes of a change of its entry sensor, of its gap's end and of its
limit's end. -/

namespace Sys2Proof.Machine

/-! ### Tracker updates -/

theorem setTracker_defined {w : Work} {z : ZoneId} {c : Tracker} (h : w.trackers[z] = some c) (k : Tracker) :
    w.setTracker z k = { w with trackers := w.trackers.set z (some k) } := by
  unfold Work.setTracker
  rw [h]
  rfl

/-- An event that gives one tracker a new value changes that tracker alone. -/
theorem run_setTracker {s : State} {f : Env → Work → Work} {z : ZoneId} {c k : Tracker} (hc : s.track.trackers[z] = some c)
    (h : f s.env s.work = s.work.setTracker z k) :
    s.run f = { s with track := { s.track with trackers := s.track.trackers.set z (some k) } } := by
  unfold State.run
  rw [h, setTracker_defined (w := s.work) hc]
  exact put_quiet s _ rfl

/-- The change of an input that gives one tracker a new value. -/
theorem changeInput_setTracker {i : InputId} {a : Bool} {f : Env → Work → Work} {s : State} {z : ZoneId} {c k : Tracker}
    (hs : inputSeen s.layout s.inputs i ≠ a) (hc : s.track.trackers[z] = some c)
    (h : f (s.setInput i a).env (s.setInput i a).work = (s.setInput i a).work.setTracker z k) :
    changeInput i a f s =
      { s.setInput i a with track := { s.track with trackers := s.track.trackers.set z (some k) } } :=
  (if_neg hs).trans (run_setTracker (s := s.setInput i a) hc h)

/-! ### Changes of the entry sensor (R42, R43, R45) -/

section
variable {e : Env} {z : ZoneId} {a : Bool} {w : Work}

theorem entryChange_none (h : w.trackers[z] = none) : entryChange e z a w = w := by
  unfold entryChange
  rw [h]

theorem entryChange_begins (h : w.trackers[z] = some .idle) :
    entryChange e z true w = headEvent e z (w.setTracker z (.passing false (limitOf e z) none)) := by
  unfold entryChange
  rw [h]
  rfl

theorem entryChange_stays_idle (h : w.trackers[z] = some .idle) : entryChange e z false w = w := by
  unfold entryChange
  rw [h]
  rfl

theorem entryChange_passing {q : Bool} {l : Nat} {g : Option Nat} (h : w.trackers[z] = some (.passing q l g)) :
    entryChange e z a w = w.setTracker z (.passing q l (if a then none else some (gapOf e z))) := by
  unfold entryChange
  rw [h]

theorem entryChange_stuck {g : Option Nat} (h : w.trackers[z] = some (.stuck g)) :
    entryChange e z a w = w.setTracker z (.stuck (if a then none else some (gapOf e z))) := by
  unfold entryChange
  rw [h]

/-! ### The ends of a gap and of a limit (R43 to R45) -/

theorem gapEnds_tail {l g : Nat} (h : w.trackers[z] = some (.passing false l (some g))) :
    gapEnds e z w = tailEvent e z (w.setTracker z .idle) := by
  unfold gapEnds
  rw [h]
  rfl

theorem gapEnds_silent {l g : Nat} (h : w.trackers[z] = some (.passing true l (some g))) :
    gapEnds e z w = w.setTracker z .idle := by
  unfold gapEnds
  rw [h]
  rfl

theorem gapEnds_stuck {g : Nat} (h : w.trackers[z] = some (.stuck (some g))) : gapEnds e z w = w.setTracker z .idle := by
  unfold gapEnds
  rw [h]

theorem gapEnds_other (hp : ∀ q l g, w.trackers[z] ≠ some (.passing q l (some g)))
    (hs : ∀ g, w.trackers[z] ≠ some (.stuck (some g))) :
    gapEnds e z w = w := by
  unfold gapEnds
  split
  · next q l g h => exact absurd h (hp q l g)
  · next g h => exact absurd h (hs g)
  all_goals rfl

theorem limitEnds_passing {q : Bool} {l : Nat} {g : Option Nat} (h : w.trackers[z] = some (.passing q l g)) :
    limitEnds e z w =
      closeEvent e (raiseHalt e .sensorStuck (.zone z) 0xFF 0xFF (faultZones .sensorStuck [z] (w.setTracker z (.stuck g)))) := by
  unfold limitEnds
  rw [h]
  rfl

theorem limitEnds_other (hp : ∀ q l g, w.trackers[z] ≠ some (.passing q l g)) : limitEnds e z w = w := by
  unfold limitEnds
  split
  · next q l g h => exact absurd h (hp q l g)
  all_goals rfl

end

end Sys2Proof.Machine

namespace Sys2Proof.Proofs
open Sys2Proof.Machine

/-- Settles O37: each change of the sensor and each end of a timer by the state of the tracker. -/
theorem passageTracking : Obligations.PassageTracking := by
  intro s z gap limit
  refine ⟨?_, ?_, fun q l g h => congrArg Host.Outcome.next (run_congr (limitEnds_passing h)), fun h =>
    congrArg Host.Outcome.next (run_same (limitEnds_other h)), rfl⟩
  · intro a u put
    refine ⟨fun h => congrArg Host.Outcome.next (changeInput_same fun hs => entryChange_none (h.resolve_left hs)),
      fun hs h ha => congrArg Host.Outcome.next (changeInput_run hs ?_),
      fun _ h ha => congrArg Host.Outcome.next (changeInput_same fun _ => ?_),
      fun q l g hs h => congrArg Host.Outcome.next (changeInput_setTracker hs h (entryChange_passing h)),
      fun g hs h => congrArg Host.Outcome.next (changeInput_setTracker hs h (entryChange_stuck h))⟩
    · rw [ha]
      exact entryChange_begins h
    · rw [ha]
      exact entryChange_stays_idle h
  · intro put
    exact ⟨fun l g h => congrArg Host.Outcome.next (run_congr (gapEnds_tail h)),
      fun l g h => congrArg Host.Outcome.next (run_setTracker h (gapEnds_silent h)),
      fun g h => congrArg Host.Outcome.next (run_setTracker h (gapEnds_stuck h)),
      fun hp hs => congrArg Host.Outcome.next (run_same (gapEnds_other hp hs))⟩

end Sys2Proof.Proofs
end

section
/-! SUPPORT. Head events and tail events (R47 to R53): what they do by the zone's state and by the train that holds the zone. -/

namespace Sys2Proof.Machine

/-! ### The train that holds a zone (R18) -/

/-- A search of the trains finds the one train that has a property. -/
theorem trainIds_find?_unique {P : TrainId → Prop} [DecidablePred P] {t : TrainId} (ht : P t) (h : ∀ u, P u → u = t) :
    trainIds.find? (fun u => decide (P u)) = some t :=
  (finRange_find?_some _ t).2 ⟨decide_eq_true ht, fun u hu hp => absurd (h u (of_decide_eq_true hp)) (Fin.ne_of_lt hu)⟩

/-- A search of the trains finds nothing where no train has the property. -/
theorem trainIds_find?_none {P : TrainId → Prop} [DecidablePred P] (h : ∀ u, ¬ P u) :
    trainIds.find? (fun u => decide (P u)) = none :=
  List.find?_eq_none.2 fun u _ hp => h u (of_decide_eq_true hp)

/-! ### Zones without a train's event (R53) -/

section
variable {e : Env} {z : ZoneId} {w : Work}

theorem headEvent_undefined (h : w.zoneState z = none) : headEvent e z w = w := by
  unfold headEvent
  rw [h]

theorem tailEvent_undefined (h : w.zoneState z = none) : tailEvent e z w = w := by
  unfold tailEvent
  rw [h]

theorem headEvent_handed {p : PortId} (h : w.zoneState z = some (.handed p)) :
    headEvent e z w = w.post [p] .passage (.zone z) 1 := by
  unfold headEvent
  rw [h]
  rfl

theorem tailEvent_handed {p : PortId} (h : w.zoneState z = some (.handed p)) :
    tailEvent e z w = w.post [p] .passage (.zone z) 2 := by
  unfold tailEvent
  rw [h]
  rfl

/-! ### Zones of the controller -/

variable {x : ZoneState} (hz : w.zoneState z = some x) (hx : ∀ p, x ≠ .handed p)
include hz hx

theorem headEvent_unheld (h : ∀ t : TrainId, z ∉ (w.trains[t]).ahead) : headEvent e z w = closeEvent e (intrude e z x w) := by
  have hnone : authorityHolder w.toTrack z = none := trainIds_find?_none h
  unfold headEvent
  rw [hz, hnone]
  cases x with
  | handed p => exact absurd rfl (hx p)
  | _ => rfl

theorem headEvent_ahead {t : TrainId} (ht : z ∈ (w.trains[t]).ahead) (h : ∀ u : TrainId, z ∈ (w.trains[u]).ahead → u = t) :
    headEvent e z w = closeEvent e (headInAuthority e t z x w) := by
  have hsome : authorityHolder w.toTrack z = some t := trainIds_find?_unique ht h
  unfold headEvent
  rw [hz, hsome]
  cases x with
  | handed p => exact absurd rfl (hx p)
  | _ => rfl

theorem tailEvent_unheld (h : ∀ t : TrainId, z ∉ (w.trains[t]).footprint) : tailEvent e z w = postAnomaly z x w := by
  have hnone : footprintHolder w.toTrack z = none := trainIds_find?_none h
  unfold tailEvent
  rw [hz, hnone]
  cases x with
  | handed p => exact absurd rfl (hx p)
  | _ => rfl

theorem tailEvent_footprint {t : TrainId} (ht : z ∈ (w.trains[t]).footprint)
    (h : ∀ u : TrainId, z ∈ (w.trains[u]).footprint → u = t) :
    tailEvent e z w = if (w.trains[t]).footprint.head? = some z then postAnomaly z x w
      else closeEvent e (restReleased e t z (takeTail e t z w)) := by
  have hsome : footprintHolder w.toTrack z = some t := trainIds_find?_unique ht h
  unfold tailEvent
  rw [hz, hsome]
  cases x with
  | handed p => exact absurd rfl (hx p)
  | _ => rfl

end

/-! ### A head event within an authority (R47 to R50) -/

theorem mayAdvance_iff (r : Train) : mayAdvance r = true ↔ r.state = .cleared ∨ r.state = .running ∨ r.state = .halted := by
  unfold mayAdvance
  cases r.state <;> simp

section
variable {e : Env} {t : TrainId} {z : ZoneId} {x : ZoneState} {g : LegEntry} {gs : List LegEntry} {w : Work}
variable (ha : (w.trains[t]).authority = g :: gs)
include ha

theorem headInAuthority_advances (hz : (w.trains[t]).ahead.head? = some z) (hm : mayAdvance w.trains[t] = true)
    (hn : (w.trains[t]).footprint.length < Config.footprintSize) :
    headInAuthority e t z x w = checkShort e t z (takeHead e t z g gs w) := by
  unfold headInAuthority
  rw [ha]
  dsimp only
  rw [if_pos hz, if_pos hm, if_neg (Nat.not_le.2 hn)]

theorem headInAuthority_overruns (hz : (w.trains[t]).ahead.head? = some z) (hm : mayAdvance w.trains[t] = true)
    (hn : Config.footprintSize ≤ (w.trains[t]).footprint.length) : headInAuthority e t z x w = overrunShort e t w := by
  unfold headInAuthority
  rw [ha]
  dsimp only
  rw [if_pos hz, if_pos hm, if_pos hn]

theorem headInAuthority_intrudes (hz : (w.trains[t]).ahead.head? = some z) (hm : ¬ mayAdvance w.trains[t] = true) :
    headInAuthority e t z x w = intrude e z x w := by
  unfold headInAuthority
  rw [ha]
  dsimp only
  rw [if_pos hz, if_neg hm]

theorem headInAuthority_misses (hz : (w.trains[t]).ahead.head? ≠ some z) :
    headInAuthority e t z x w = missSensor e t z w := by
  unfold headInAuthority
  rw [ha]
  dsimp only
  rw [if_neg hz]

end

end Sys2Proof.Machine

namespace Sys2Proof.Proofs
open Sys2Proof.Machine

/-- Settles O38: by the zone's state, then by the train that holds the zone and the zone's place in what it holds. -/
theorem headAndTailEvents : Obligations.HeadAndTailEvents := by
  intro e z w
  refine ⟨fun h => ⟨headEvent_undefined h, tailEvent_undefined h⟩, fun p h => ⟨headEvent_handed h, tailEvent_handed h⟩, ?_⟩
  intro x hz hx intrusion anomaly
  refine ⟨headEvent_unheld hz hx, ?_, tailEvent_unheld hz hx, ?_⟩
  · intro t g gs ha hm hu moves n
    rw [headEvent_ahead hz hx hm hu]
    have hmoves : mayAdvance w.trains[t] = true ↔ moves := mayAdvance_iff _
    exact ⟨fun hd hmv hn => congrArg (closeEvent e) (headInAuthority_advances ha hd (hmoves.2 hmv) hn),
      fun hd hmv hn => congrArg (closeEvent e) (headInAuthority_overruns ha hd (hmoves.2 hmv) hn),
      fun hd hmv => congrArg (closeEvent e) (headInAuthority_intrudes ha hd (mt hmoves.1 hmv)),
      fun hd => congrArg (closeEvent e) (headInAuthority_misses ha hd)⟩
  · intro t a b hf hne hu
    have hmem : z ∈ (w.trains[t]).footprint := hf ▸ List.mem_append_right a List.mem_cons_self
    rw [tailEvent_footprint hz hx hmem hu, hf]
    cases a with
    | nil => exact ⟨fun _ => if_pos rfl, fun h => absurd rfl h⟩
    | cons y ys =>
      have hy : (y :: ys ++ z :: b).head? ≠ some z := fun h => hne (Option.some.inj h ▸ List.mem_cons_self)
      exact ⟨fun h => absurd h (List.cons_ne_nil y ys), fun _ => if_neg hy⟩

end Sys2Proof.Proofs
end

section
/-! SUPPORT. Formation occasions (R59, R88, R89), claims that arrive (R93, R94), and the moves of claims that leave (R110). -/

namespace Sys2Proof.Machine

/-! ### A formation occasion (R59) -/

theorem atEnd_ride {r : Train} {d : Ride} (h : r.ride = some d) : r.atEnd = d.atEnd := by
  unfold Train.atEnd
  rw [h]
  rfl

theorem stalled_ride {r : Train} {d : Ride} (h : r.ride = some d) : r.stalled = d.stalled := by
  unfold Train.stalled
  rw [h]
  rfl

/-- A train with this ride may form a claim: the mode is OPERATING, no claim of it is pending, at-end and stalled are clear
(R59). -/
def mayForm (w : Track) (t : TrainId) (d : Ride) : Prop :=
  w.mode = .operating ∧ hasPending w t = false ∧ d.atEnd = false ∧ d.stalled = false

section
variable {e : Env} {t : TrainId} {o : Origin} {wait : Option Nat} {w : Work} {d : Ride}

/-- The condition under which `formClaim` forms none is the negation of `mayForm`. -/
theorem not_mayForm_iff : ¬ mayForm w.toTrack t d ↔
    (w.mode ≠ .operating ∨ hasPending w.toTrack t = true ∨ d.atEnd = true ∨ d.stalled = true) := by
  unfold mayForm
  simp only [not_and_or, Bool.not_eq_false, ne_eq]

section
variable {b : StepId} {fs : List Frame} (hd : (w.trains[t]).ride = some d)
include hd

theorem formClaim_barred (h : ¬ mayForm w.toTrack t d) : formClaim e t b fs o wait w = .no := by
  unfold formClaim
  simp only [hd, if_pos (not_mayForm_iff.1 h)]

variable (hm : mayForm w.toTrack t d)
include hm

/-- The route engine finds no next step: the route's end is met (R89). -/
theorem formClaim_ended (hs : selectStep e.routes[d.route] b fs = none) : formClaim e t b fs o wait w = .ended := by
  unfold formClaim
  simp only [hd, if_neg (mt not_mayForm_iff.2 (not_not.2 hm)), hs]

theorem formClaim_leg {k : Decision} {x y : RouteStep} {g : Leg} (hs : selectStep e.routes[d.route] b fs = some k)
    (hx : e.step d.route b = some x) (hy : e.step d.route k.target = some y)
    (hg : legBetween e.layout x.zone y.zone = some g) : formClaim e t b fs o wait w = .claim (arriveClaim (.leg {
      train := t, origin := o, start := g.start, zones := g.zones, reqs := g.reqs, decision := k }) wait w) := by
  unfold formClaim
  simp only [hd, if_neg (mt not_mayForm_iff.2 (not_not.2 hm)), hs, hx, hy, hg]

end

/-! ### A train at rest (R60, R88, R89) -/

theorem formAtRest_routeless (hd : (w.trains[t]).ride = none) : formAtRest e t o wait w = w := by
  unfold formAtRest
  simp only [hd]

section
variable (hd : (w.trains[t]).ride = some d)
include hd

theorem formAtRest_barred (h : ¬ mayForm w.toTrack t d) : formAtRest e t o wait w = w := by
  unfold formAtRest
  simp only [hd, formClaim_barred hd h]

theorem routeEnd_eq : routeEnd e t w =
    (w.setTrain t { w.trains[t] with state := .standing, ride := some { d with atEnd := true } }).post
      (supervisorAnd ((w.trains[t]).rest.bind e.owner)) .routeEnd (.train t) (byteOf d.cursor.val) := by
  unfold routeEnd Train.mapRide
  simp only [hd]
  rfl

variable (hm : mayForm w.toTrack t d)
include hm

theorem formAtRest_ended (hs : selectStep e.routes[d.route] d.cursor d.frames = none) :
    formAtRest e t o wait w = routeEnd e t w := by
  unfold formAtRest
  simp only [hd, formClaim_ended hd hm hs]

theorem formAtRest_leg {k : Decision} {x y : RouteStep} {g : Leg}
    (hs : selectStep e.routes[d.route] d.cursor d.frames = some k) (hx : e.step d.route d.cursor = some x)
    (hy : e.step d.route k.target = some y) (hg : legBetween e.layout x.zone y.zone = some g) :
    formAtRest e t o wait w = (arriveClaim (.leg { train := t, origin := o, start := g.start, zones := g.zones
                                                   reqs := g.reqs, decision := k }) wait w).modifyTrain t
      fun r => { r with state := .claiming } := by
  unfold formAtRest
  simp only [hd, formClaim_leg hd hm hs hx hy hg]

end

end

/-! ### A claim that arrives (R93, R94) -/

section
variable (b : ClaimBody) (wait : Option Nat) (w : Work)

/-- The record of a claim that arrives. -/
def arriving : Claim := { seq := w.nextSeq, body := b, state := .waiting, wait := wait, bypass := 0 }

theorem arriveClaim_list (h : w.claims.length < 12) :
    arriveClaim b wait w = { w with claims := w.claims ++ [arriving b wait w], nextSeq := w.nextSeq + 1 } := if_pos h

theorem arriveClaim_line (h : 12 ≤ w.claims.length) :
    arriveClaim b wait w = { w with line := w.line ++ [arriving b wait w], nextSeq := w.nextSeq + 1 } := if_neg (Nat.not_lt.2 h)

theorem arriveClaim_trains : (arriveClaim b wait w).trains = w.trains := by
  obtain ⟨cl, li, n, h⟩ := arriveClaim_frame b wait w
  rw [h]

end

/-! ### Moves of claims that leave (R110) -/

theorem mem_leaving {gone : Claim → Bool} {w : Track} {n : SwitchId} {k : Byte} :
    (∃ c ∈ (w.claims ++ w.line).filter gone, c.servedBy n k = true) ↔
      ∃ c ∈ w.claims ++ w.line, gone c = true ∧ c.seq = k ∧ ∃ ns, c.state = .setting ns ∧ n ∈ ns := by
  simp only [List.mem_filter, Claim.servedBy_iff, and_assoc]

end Sys2Proof.Machine

namespace Sys2Proof.Proofs
open Sys2Proof.Machine

/-- Settles O46: the formation occasion by what `formClaim` comes to, the arrival by the place in the list, the departure by which
moves the leaving claims were served by. -/
theorem claimsFormedAndDropped : Obligations.ClaimsFormedAndDropped := by
  refine ⟨fun e t o wait w => ⟨fun h => ?_, fun d hd hm hp ha hst => ?_⟩,
    fun x wait w => ⟨arriveClaim_list x wait w, arriveClaim_line x wait w⟩, fun gone w => ⟨rfl, rfl, ?_, ?_, rfl⟩⟩
  · cases hd : (w.trains[t]).ride with
    | none => exact formAtRest_routeless hd
    | some d =>
      refine formAtRest_barred hd (not_mayForm_iff.2 ?_)
      rw [hasPending_iff, ← atEnd_ride hd, ← stalled_ride hd]
      exact h.resolve_left (by rw [hd]; exact Option.some_ne_none d)
  · have hform : mayForm w.toTrack t d := ⟨hm, eq_false_of_ne_true fun h => hp ((hasPending_iff ..).1 h), ha, hst⟩
    refine ⟨fun hs => (formAtRest_ended hd hform hs).trans (routeEnd_eq hd), fun k a b g hs hx hy hg => ?_⟩
    rw [formAtRest_leg hd hform hs hx hy hg]
    unfold Work.modifyTrain
    rw [arriveClaim_trains]
  · intro n r q l k hr hmv hleft
    exact unserve_served hr hmv (mem_leaving.2 hleft)
  · intro n hstay
    refine unserve_other fun r q l k hr hmv c hc => eq_false_of_ne_true fun hsv => ?_
    exact hstay r q l k hr hmv (mem_leaving.1 ⟨c, hc, hsv⟩)

end Sys2Proof.Proofs
end

section
/-! SUPPORT. The grant of a LEG claim by its steps (R60, R100): the leg entry, the moves, the claim, the onward claim, and
the notice. -/

namespace Sys2Proof.Machine

/-! ### The leg's zones and its entry (R100, step 1) -/

section
variable (g : LegClaim) (w : Work)

/-- The leg entry a granted claim appends to its train's authority. -/
def LegClaim.entry : LegEntry :=
  { start := g.start, zones := g.zones, started := false, reqs := g.reqs, target := g.decision.target
    decision := some g.decision, origin := g.origin, onward := false }

theorem appendLeg_self : (appendLeg g w).trains[g.train] =
    { w.trains[g.train] with authority := (w.trains[g.train]).authority ++ [g.entry] } := by
  unfold appendLeg
  rw [modifyTrain_self, setZones_trains]
  rfl

theorem appendLeg_other {u : TrainId} (h : u ≠ g.train) : (appendLeg g w).trains[u] = w.trains[u] := by
  unfold appendLeg
  rw [modifyTrain_other _ _ h, setZones_trains]

theorem appendLeg_reserved {z : ZoneId} (hz : z ∈ g.zones) (hd : w.zones[z] ≠ none) :
    (appendLeg g w).zoneState z = some (.reserved g.train) := by
  have hs : (appendLeg g w).zoneState z = (w.setZones g.zones (.reserved g.train)).zoneState z := rfl
  obtain ⟨r, hr⟩ := Option.ne_none_iff_exists'.1 hd
  rw [hs, setZones_zoneState, if_pos hz, Track.zoneState, hr]
  rfl

theorem appendLeg_zone {z : ZoneId} (hz : z ∉ g.zones) : (appendLeg g w).zones[z] = w.zones[z] := by
  have hs : (appendLeg g w).zones = (w.setZones g.zones (.reserved g.train)).zones := rfl
  rw [hs, setZones_zone, if_neg hz]

/-- A leg entry appended changes zones and trains alone. -/
theorem appendLeg_frame : { appendLeg g w with zones := w.zones, trains := w.trains } = w := by
  have h := congrArg (fun v : Work => { v with trains := w.trains }) (setZones_frame w g.zones (.reserved g.train))
  exact h

end

/-! ### The moves and the claim (R100, steps 3 and 4) -/

theorem settledIn_eq (w : Track) (q : Requirement) :
    w.settledIn q = decide (w.switchState q.switch = some (.settled q.position)) := by
  unfold Track.settledIn Track.switchState
  cases w.switches[q.switch] <;> simp

theorem unsettled_eq (w : Track) (g : LegClaim) :
    unsettled w g = g.reqs.filter fun q => !decide (w.switchState q.switch = some (.settled q.position)) := by
  unfold unsettled
  simp only [settledIn_eq]

theorem settleOrWait_eq (c : Claim) (qs : List Requirement) (w : Work) : settleOrWait c (qs.map (·.switch)) w =
    if qs = [] then dropClaims (fun d => d.same c) w
    else mapClaims (fun d => if d.same c then { d with state := .setting (qs.map (·.switch)) } else d) w := by
  cases qs with
  | nil => exact (if_pos rfl).symm
  | cons q qs => exact (if_neg (List.cons_ne_nil q qs)).symm

section
variable (e : Env) (n : SwitchId) (q : Position) (x : Served) (w : Work)

theorem startMove_self {r : Switch} {l : SwitchLayout} (hr : w.switches[n] = some r) (hl : e.layout.switches[n] = some l) :
    (startMove e n q x w).switches[n] = some { r with
      state := .moving q (l.moveLimit * 100) x, attempts := 0, driveStraight := decide (q = .straight)
      driveDiverge := decide (q = .diverge) } := by
  unfold startMove Work.modifySwitch
  dsimp only
  rw [vector_get_set, if_pos rfl, hr, hl]
  rfl

theorem startMove_other {m : SwitchId} (h : m ≠ n) : (startMove e n q x w).switches[m] = w.switches[m] := by
  unfold startMove Work.modifySwitch
  dsimp only
  rw [vector_get_set, if_neg (Ne.symm h)]

end

/-! ### The onward claim (R60; R100, step 6) -/

section
variable {e : Env} {g : LegClaim} {w : Work}

/-- The occasion of an onward claim at the grant: the entry is the only one, and its target a PASS step (R60). -/
def onwardOccasion (e : Env) (g : LegClaim) (w : Track) (x : LegEntry) (d : Ride) : Prop :=
  (w.trains[g.train]).authority = [x] ∧ (w.trains[g.train]).ride = some d ∧
    (e.step d.route g.decision.target).map (·.action) = some .pass

section
variable {x : LegEntry} {d : Ride} (h : onwardOccasion e g w.toTrack x d)
include h

theorem onwardAtGrant_formed {w' : Work}
    (hf : formClaim e g.train g.decision.target (applyFrameOps d.frames g.decision.ops) .auto none w = .claim w') :
    onwardAtGrant e g w = w'.modifyTrain g.train noteOnward := by
  obtain ⟨ha, hd, hp⟩ := h
  unfold onwardAtGrant
  simp only [ha, hd, (targetIsPass_iff hd g.decision.target).2 hp, if_true, hf]

theorem onwardAtGrant_unformed
    (hf : ∀ w', formClaim e g.train g.decision.target (applyFrameOps d.frames g.decision.ops) .auto none w ≠ .claim w') :
    onwardAtGrant e g w = w := by
  obtain ⟨ha, hd, hp⟩ := h
  unfold onwardAtGrant
  simp only [ha, hd, (targetIsPass_iff hd g.decision.target).2 hp, if_true]
  split
  · next w' hc => exact absurd hc (hf w')
  · rfl
  · rfl

end

theorem onwardAtGrant_quiet (h : ∀ x d, ¬ onwardOccasion e g w.toTrack x d) : onwardAtGrant e g w = w := by
  unfold onwardAtGrant
  split
  · next x d ha hd =>
    split
    · next ht => exact absurd ⟨ha, hd, (targetIsPass_iff hd _).1 ht⟩ (h x d)
    · rfl
  · rfl

end

end Sys2Proof.Machine

namespace Sys2Proof.Proofs
open Sys2Proof.Machine

/-- Settles O49: the steps of the grant one by one, each by its own lemmas. -/
theorem legGrant : Obligations.LegGrant := by
  refine ⟨fun e i c g w hb => ?_, fun g w => ⟨appendLeg_self g w, fun u hu => appendLeg_other g w hu,
      fun z hz hd => appendLeg_reserved g w hz hd, fun z hz => appendLeg_zone g w hz, appendLeg_frame g w⟩,
    fun e n q x w => ⟨fun r l hr hl => startMove_self e n q x w hr hl, fun m hm => startMove_other e n q x w hm, rfl⟩,
    fun e g w => ⟨fun x d w' ho hf => onwardAtGrant_formed ho hf, fun x d ho hf => onwardAtGrant_unformed ho hf,
      onwardAtGrant_quiet⟩,
    fun g w z hz => ?_⟩
  · have hgrant : grant e i c w = grantLeg e i c g w := by
      unfold grant
      rw [hb]
    rw [hgrant]
    unfold grantLeg
    simp only [unsettled_eq, settleOrWait_eq]
  · unfold postGrant
    rw [hz]
    rfl

end Sys2Proof.Proofs
end

section
/-! SUPPORT. The claims of dispatches, the phases of a dispatch (R117, Table 7-2), the dispatch or move in progress (R121, R123),
and what a stop sensor and a READY input change (R66, R118, R119). -/

namespace Sys2Proof.Machine

/-! ### Dispatch claims (R116, R117) -/

theorem legOf_iff (c : Claim) (t : TrainId) (g : LegClaim) : c.legOf t = some g ↔ c.body = .leg g ∧ g.train = t := by
  unfold Claim.legOf
  cases c.body with
  | leg x =>
    constructor
    · intro h
      dsimp only at h
      split at h
      · next ht => cases h; exact ⟨rfl, ht⟩
      · cases h
    · rintro ⟨h, ht⟩
      cases h
      exact if_pos ht
  | sectionOf x => exact ⟨nofun, fun h => nomatch h.1⟩

/-- The claim is of origin DISPATCH, of the train, for the leg from the zone. -/
def Claim.asksDispatch (c : Claim) (t : TrainId) (z : ZoneId) : Prop :=
  ∃ g p, c.body = .leg g ∧ g.train = t ∧ g.start = z ∧ g.origin = .dispatch p

theorem isDispatchFrom_iff (c : Claim) (t : TrainId) (z : ZoneId) : c.isDispatchFrom t z = true ↔ c.asksDispatch t z := by
  unfold Claim.isDispatchFrom Claim.asksDispatch
  cases hl : c.legOf t with
  | none =>
    refine ⟨nofun, ?_⟩
    rintro ⟨g, p, hb, ht, -⟩
    rw [(legOf_iff c t g).2 ⟨hb, ht⟩] at hl
    cases hl
  | some g =>
    obtain ⟨hb, ht⟩ := (legOf_iff c t g).1 hl
    cases ho : g.origin <;> simp [hb, ht, ho]

/-- The dispatch claim is the oldest that asks for the dispatch. -/
theorem dispatchClaim_iff (w : Track) (t : TrainId) (z : ZoneId) (c : Claim) : dispatchClaim w t z = some c ↔
    c.asksDispatch t z ∧ ∃ xs ys, w.claims ++ w.line = xs ++ c :: ys ∧ ∀ x ∈ xs, ¬ x.asksDispatch t z := by
  unfold dispatchClaim Track.allClaims
  simp only [List.find?_eq_some_iff_append, Bool.not_eq_true', ← Bool.not_eq_true, isDispatchFrom_iff]

/-! ### The phases of a dispatch (R117, Table 7-2) -/

theorem occupant_iff (w : Track) (z : ZoneId) (t : TrainId) : occupant w z = some t ↔ w.zoneState z = some (.occupied t) := by
  unfold occupant
  split
  · next u h => rw [h]; simp
  · next h => exact ⟨nofun, fun hz => absurd hz (h t)⟩

section
variable {w : Track} {z : ZoneId} {t : TrainId}

/-- What a phase of a dispatch stands for. -/
theorem dispatchPhase_iff (f : Phase) : dispatchPhase w z = some (f, t) ↔ w.zoneState z = some (.occupied t) ∧
    (((w.trains[t]).state = .claiming ∧ ∃ c, dispatchClaim w t z = some c ∧ f = if c.isWaiting then .waiting else .setting) ∨
      ((w.trains[t]).state = .cleared ∧ f = .cleared ∧
        ∃ g gs p, (w.trains[t]).authority = g :: gs ∧ g.origin = .dispatch p)) := by
  rw [← occupant_iff]
  unfold dispatchPhase
  constructor
  · intro h
    split at h
    · cases h
    · next u hu =>
      split at h
      · next hs =>
        split at h
        · next c hc => cases h; exact ⟨hu, .inl ⟨hs, c, hc, rfl⟩⟩
        · cases h
      · next hs =>
        split at h
        · next g gs ha =>
          split at h
          · next p ho => cases h; exact ⟨hu, .inr ⟨hs, rfl, g, gs, p, ha, ho⟩⟩
          · cases h
          · cases h
        · cases h
      · cases h
  · rintro ⟨hu, ⟨hs, c, hc, rfl⟩ | ⟨hs, rfl, g, gs, p, ha, ho⟩⟩
    · simp only [hu, hs, hc]
    · simp only [hu, hs, ha, ho]

theorem dispatchPhase_waiting_iff : dispatchPhase w z = some (.waiting, t) ↔
    (w.zoneState z = some (.occupied t) ∧ (w.trains[t]).state = .claiming) ∧
      ∃ c, dispatchClaim w t z = some c ∧ c.state = .waiting := by
  have hw : ∀ c : Claim, Phase.waiting = (if c.isWaiting then .waiting else .setting) ↔ c.state = .waiting := by
    intro c
    rw [← isWaiting_iff]
    cases c.isWaiting <;> simp
  simp only [dispatchPhase_iff, hw, reduceCtorEq, false_and, and_false, or_false, and_assoc]

theorem dispatchPhase_setting_iff : dispatchPhase w z = some (.setting, t) ↔
    (w.zoneState z = some (.occupied t) ∧ (w.trains[t]).state = .claiming) ∧
      ∃ c ns, dispatchClaim w t z = some c ∧ c.state = .setting ns := by
  have hw : ∀ c : Claim, Phase.setting = (if c.isWaiting then .waiting else .setting) ↔ ∃ ns, c.state = .setting ns := by
    intro c
    unfold Claim.isWaiting
    cases c.state <;> simp
  simp only [dispatchPhase_iff, hw, reduceCtorEq, false_and, and_false, or_false, and_assoc, exists_and_left]

theorem dispatchPhase_cleared_iff : dispatchPhase w z = some (.cleared, t) ↔
    w.zoneState z = some (.occupied t) ∧ (w.trains[t]).state = .cleared ∧
      ∃ g gs p, (w.trains[t]).authority = g :: gs ∧ g.origin = .dispatch p := by
  have hw : ∀ c : Claim, ¬ Phase.cleared = (if c.isWaiting then .waiting else .setting) := by
    intro c
    cases c.isWaiting <;> simp
  simp only [dispatchPhase_iff, hw, and_false, exists_false, false_or, true_and]

/-! ### The dispatch or move in progress (R117, R121, R123) -/

theorem startsAt_eq (c : Claim) (t : TrainId) (z : ZoneId) : c.startsAt t z = (c.legOf t).any fun g => decide (g.start = z) := by
  unfold Claim.startsAt
  cases c.legOf t <;> rfl

theorem legOf_startsAt {c : Claim} {g : LegClaim} (hb : c.body = .leg g) (h : c.startsAt t z = true) : c.legOf t = some g := by
  rw [startsAt_eq, Option.any_eq_true] at h
  obtain ⟨x, hx, -⟩ := h
  obtain ⟨hbx, ht⟩ := (legOf_iff c t x).1 hx
  cases hb.symm.trans hbx
  exact hx

/-- A train that is CLAIMING has the origin of its oldest claim from its rest zone in progress. -/
theorem progressOrigin_claiming {o : Origin} (hs : (w.trains[t]).state = .claiming) (hf : (w.trains[t]).footprint = [z]) :
    progressOrigin w t = some o ↔ ∃ c g xs ys, c.body = .leg g ∧ g.origin = o ∧ c.startsAt t z = true ∧
      w.claims ++ w.line = xs ++ c :: ys ∧ ∀ x ∈ xs, x.startsAt t z = false := by
  have hfind : progressOrigin w t =
      (((w.claims ++ w.line).find? fun c => c.startsAt t z).bind fun c => c.legOf t).map (·.origin) := by
    unfold progressOrigin Track.allClaims
    simp only [hs, rest_some.2 hf, List.find?_filterMap, startsAt_eq]
  rw [hfind]
  simp only [Option.map_eq_some_iff, Option.bind_eq_some_iff, List.find?_eq_some_iff_append, Bool.not_eq_true']
  constructor
  · rintro ⟨g, ⟨c, ⟨hc, xs, ys, hl, hxs⟩, hg⟩, ho⟩
    exact ⟨c, g, xs, ys, ((legOf_iff c t g).1 hg).1, ho, hc, hl, hxs⟩
  · rintro ⟨c, g, xs, ys, hb, ho, hc, hl, hxs⟩
    exact ⟨g, ⟨c, ⟨hc, xs, ys, hl, hxs⟩, legOf_startsAt hb hc⟩, ho⟩

/-- A CLEARED train has the origin of its first leg entry in progress. -/
theorem progressOrigin_cleared {o : Origin} (hs : (w.trains[t]).state = .cleared) :
    progressOrigin w t = some o ↔ ∃ g gs, (w.trains[t]).authority = g :: gs ∧ g.origin = o := by
  unfold progressOrigin
  simp only [hs, Option.map_eq_some_iff]
  cases (w.trains[t]).authority <;> simp

theorem progressOrigin_some {o : Origin} (h : progressOrigin w t = some o) :
    ((w.trains[t]).state = .claiming ∧ ∃ z, (w.trains[t]).footprint = [z]) ∨ (w.trains[t]).state = .cleared := by
  unfold progressOrigin at h
  split at h
  · next z hs hr => exact .inl ⟨hs, z, rest_some.1 hr⟩
  · next hs => exact .inr hs
  · cases h

end

/-! ### The stop sensor (R63, R66) -/

section
variable {e : Env} {z : ZoneId} {w : Work}

theorem clearedAt_eq (w : Track) (z : ZoneId) : clearedAt w z =
    trainIds.find? fun t => decide ((w.trains[t]).state = .cleared ∧ (w.trains[t]).footprint = [z]) := by
  unfold clearedAt
  simp only [rest_some, Bool.decide_and]

theorem movingAt_eq (w : Track) (z : ZoneId) : movingAt w z = trainIds.find? fun t => decide
    (((w.trains[t]).state = .running ∨ (w.trains[t]).state = .halted) ∧ (w.trains[t]).footprint = [z]) := by
  unfold movingAt
  simp only [rest_some, Bool.decide_and, Bool.decide_or]

theorem stopChange_unbraked {a : Bool} (h : w.hold z = none) : stopChange e z a w = w := by
  unfold stopChange
  rw [h]

variable (hb : w.hold z ≠ none)
include hb

theorem stopChange_inactive_unused (h : clearedAt w.toTrack z = none) : stopChange e z false w = w := by
  obtain ⟨x, hx⟩ := Option.ne_none_iff_exists'.1 hb
  unfold stopChange
  simp only [hx, h, Bool.false_eq_true, if_false]

theorem stopChange_departs {t : TrainId} (h : clearedAt w.toTrack z = some t) : stopChange e z false w = depart e t z w := by
  obtain ⟨x, hx⟩ := Option.ne_none_iff_exists'.1 hb
  unfold stopChange
  simp only [hx, h, Bool.false_eq_true, if_false]

theorem stopChange_active_unused (h : movingAt w.toTrack z = none) : stopChange e z true w = w := by
  obtain ⟨x, hx⟩ := Option.ne_none_iff_exists'.1 hb
  unfold stopChange
  simp only [hx, h, if_true]

theorem stopChange_judges (h : movingAt w.toTrack z ≠ none) : stopChange e z true w = closeEvent e w := by
  obtain ⟨x, hx⟩ := Option.ne_none_iff_exists'.1 hb
  obtain ⟨t, ht⟩ := Option.ne_none_iff_exists'.1 h
  unfold stopChange
  simp only [hx, ht, if_true]

end

/-! ### READY (R118, R119) -/

/-- The zone is a STATION zone that names the READY input. -/
def Layout.namesReady (l : Layout) (i : ReadyId) (z : ZoneId) : Prop :=
  ∃ r, l.zones[z] = some r ∧ r.kind = .station ∧ r.ready = some i

theorem readyZone_unique {l : Layout} {i : ReadyId} {z : ZoneId} (hz : l.namesReady i z) (h : ∀ y, l.namesReady i y → y = z) :
    readyZone l i = some z := by
  unfold readyZone
  refine (finRange_find?_some _ z).2 ⟨?_, fun y hy hp => Fin.ne_of_lt hy (h y ?_)⟩
  · obtain ⟨r, hr, hk, hi⟩ := hz
    simp only [hr, hk, hi, decide_true, Bool.and_self]
  · split at hp
    · next r hr =>
      rw [Bool.and_eq_true, decide_eq_true_eq, decide_eq_true_eq] at hp
      exact ⟨r, hr, hp⟩
    · cases hp

theorem readyZone_none {l : Layout} {i : ReadyId} (h : ∀ z, ¬ l.namesReady i z) : readyZone l i = none := by
  refine List.find?_eq_none.2 fun z _ hp => h z ?_
  split at hp
  · next r hr =>
    rw [Bool.and_eq_true, decide_eq_true_eq, decide_eq_true_eq] at hp
    exact ⟨r, hr, hp⟩
  · cases hp

theorem abortClaimed_eq {t : TrainId} {z : ZoneId} {c : Claim} {w : Work} (k : AbortCause)
    (h : dispatchClaim w.toTrack t z = some c) :
    abortClaimed t z k w = postAbort t (progressOrigin w.toTrack t) k (withdrawClaim c w) := by
  unfold abortClaimed
  rw [h]

section
variable {e : Env} {i : ReadyId} {a : Bool} {w : Work}

theorem readyChange_unused (h : a = true ∨ e.layout.committed = false ∨ ∀ z, ¬ e.layout.namesReady i z) :
    readyChange e i a w = w := by
  unfold readyChange
  split
  · rfl
  · next ha =>
    split
    · next hc =>
      unfold readyDrops
      rw [readyZone_none ((h.resolve_left ha).resolve_left (by rw [hc]; exact Bool.noConfusion))]
    · rfl

theorem readyChange_drops (hc : e.layout.committed = true) : readyChange e i false w = readyDrops e i w := if_pos hc

variable {z : ZoneId} {t : TrainId} (hz : readyZone e.layout i = some z)
include hz

theorem readyDrops_unused (hp : dispatchPhase w.toTrack z = none) : readyDrops e i w = w := by
  unfold readyDrops
  simp only [hz, hp]

theorem readyDrops_claimed {f : Phase} (hp : dispatchPhase w.toTrack z = some (f, t)) (hf : f = .waiting ∨ f = .setting) :
    readyDrops e i w = closeEvent e (abortClaimed t z .ready w) := by
  unfold readyDrops
  rcases hf with rfl | rfl <;> simp only [hz, hp]

theorem readyDrops_cleared (hp : dispatchPhase w.toTrack z = some (.cleared, t)) :
    readyDrops e i w = closeEvent e (takeBackCleared t w) := by
  unfold readyDrops
  simp only [hz, hp]

end

end Sys2Proof.Machine

namespace Sys2Proof.Proofs
open Sys2Proof.Machine

/-- Settles O41: by the train that the stop sensor's zone concerns, and by the phase of the dispatch in READY's zone. -/
theorem stopSensorAndReady : Obligations.StopSensorAndReady := by
  refine ⟨fun s z a => ⟨fun h => ?_, fun hs hb ha hno => ?_, fun t hs hb ha ht hu => ?_, fun hs hb ha hno => ?_,
    fun hs hb ha hex => ?_⟩, fun s i a => ⟨fun h => ?_, fun z hz hu hs ha hc => ?_⟩⟩
  · exact congrArg Host.Outcome.next (changeInput_same fun hs => stopChange_unbraked (h.resolve_left hs))
  · subst ha
    refine congrArg Host.Outcome.next (changeInput_same fun _ => stopChange_inactive_unused hb ?_)
    rw [clearedAt_eq]
    exact trainIds_find?_none hno
  · subst ha
    refine congrArg Host.Outcome.next (changeInput_run hs ?_)
    exact stopChange_departs hb ((clearedAt_eq ..).trans (trainIds_find?_unique ht hu))
  · subst ha
    refine congrArg Host.Outcome.next (changeInput_same fun _ => stopChange_active_unused hb ?_)
    rw [movingAt_eq]
    refine trainIds_find?_none fun t ht => ?_
    obtain ⟨hs, hf⟩ := ht
    exact hs.elim (fun h => (hno t).1 ⟨h, hf⟩) fun h => (hno t).2 ⟨h, hf⟩
  · subst ha
    refine congrArg Host.Outcome.next (changeInput_run hs (stopChange_judges hb ?_))
    rw [movingAt_eq]
    obtain ⟨t, ht⟩ := hex
    intro hnone
    refine List.find?_eq_none.1 hnone t (List.mem_finRange t) (decide_eq_true ?_)
    exact ht.elim (fun ⟨h, hf⟩ => ⟨.inl h, hf⟩) fun ⟨h, hf⟩ => ⟨.inr h, hf⟩
  · exact congrArg Host.Outcome.next (changeInput_same fun hs => readyChange_unused (h.resolve_left hs))
  · subst ha
    have hzone : readyZone s.layout i = some z := readyZone_unique hz hu
    refine ⟨fun hp => ?_, fun t f c hp hf hcl => ?_, fun t hp => ?_⟩
    · refine congrArg Host.Outcome.next (changeInput_same fun _ => (readyChange_drops hc).trans ?_)
      exact readyDrops_unused hzone hp
    · refine congrArg Host.Outcome.next (changeInput_run hs ((readyChange_drops hc).trans ?_))
      rw [readyDrops_claimed hzone hp hf, abortClaimed_eq _ hcl]
    · refine congrArg Host.Outcome.next (changeInput_run hs ((readyChange_drops hc).trans ?_))
      rw [readyDrops_cleared hzone hp]
      rfl

end Sys2Proof.Proofs
end

section
/-! SUPPORT. The orders of station and transfer masters (R116, R120, R123): their zones, the train that stands for them, and
what an accepted DISPATCH or MOVE comes to. -/

namespace Sys2Proof.Machine

/-! ### The zone and the train of an order -/

section
variable {l : Layout} {z : ZoneId} {r : ZoneLayout}

theorem stationZoneArg_some (hz : l.zones[z] = some r) (hk : r.kind = .station) : stationZoneArg l z.val = some z := by
  unfold stationZoneArg
  rw [zoneArg_val]
  exact if_pos (by rw [hz, Option.map_some, hk])

theorem stationZoneArg_none {n : Nat} (h : ∀ (z : ZoneId) r, n = z.val → l.zones[z] = some r → r.kind ≠ .station) :
    stationZoneArg l n = none := by
  unfold stationZoneArg
  split
  · next z hz =>
    refine if_neg fun hk => ?_
    obtain ⟨r, hr, hkr⟩ := Option.map_eq_some_iff.1 hk
    exact h z r (zoneArg_some hz) hr hkr
  · rfl

theorem ownerOf_eq (hz : l.zones[z] = some r) : l.ownerOf z = r.owner := by
  unfold Layout.ownerOf
  rw [hz]
  rfl

end

section
variable {e : Env} {w : Track} {z : ZoneId} {a : StepAction}

/-- The train stands at rest in the zone at a step of this action, its route not ended (R116, R123). -/
def standsFor (e : Env) (w : Track) (z : ZoneId) (a : StepAction) (t : TrainId) : Prop :=
  w.zoneState z = some (.occupied t) ∧ (w.trains[t]).state = .standing ∧ e.cursorAction w.trains[t] = some a ∧
    (w.trains[t]).atEnd = false

theorem standingFor_iff (t : TrainId) : standingFor e w z a = some t ↔ standsFor e w z a t := by
  unfold standsFor
  rw [← occupant_iff]
  unfold standingFor
  cases occupant w z with
  | none => exact ⟨nofun, fun h => nomatch h.1⟩
  | some u =>
    simp only [Option.ite_none_right_eq_some, Option.some.injEq]
    constructor
    · rintro ⟨hs, rfl⟩
      exact ⟨rfl, hs⟩
    · rintro ⟨rfl, hs⟩
      exact ⟨hs, rfl⟩

theorem standingFor_none (h : ∀ t, ¬ standsFor e w z a t) : standingFor e w z a = none :=
  Option.eq_none_iff_forall_ne_some.2 fun t ht => h t ((standingFor_iff t).1 ht)

theorem readyActive_iff {l : ZoneLayout} (hz : e.layout.zones[z] = some l) :
    readyActive e z = true ↔ ∃ i, l.ready = some i ∧ inputActive e.layout e.inputs (.ready i) = true := by
  unfold readyActive Env.zone
  rw [hz, Option.bind_some]
  cases l.ready with
  | none => exact ⟨nofun, fun ⟨_, h, _⟩ => nomatch h⟩
  | some i => simp [Env.active]

end

theorem dispatchWaitMs_eq (l : ZoneLayout) : dispatchWaitMs l = l.wait.bind fun x => if x = 0 then none else some (x * 1000) := by
  unfold dispatchWaitMs
  cases l.wait <;> rfl

/-! ### An accepted order (R116, R123) -/

section
variable {s : State} {t : TrainId} {o : Origin} {wait : Option Nat} {d : Ride}

theorem clearStalled_eq {w : Work} (hd : (w.trains[t]).ride = some d) :
    clearStalled t w = w.setTrain t { w.trains[t] with ride := some { d with stalled := false } } := by
  unfold clearStalled Work.modifyTrain Train.mapRide
  simp only [hd, Option.map_some]

/-- The track of an accepted order, its train's stalled flag cleared. -/
def State.unstalled (s : State) (t : TrainId) (d : Ride) : Work :=
  s.work.setTrain t { s.track.trains[t] with ride := some { d with stalled := false } }

theorem unstalled_ride : ((s.unstalled t d).trains[t]).ride = some { d with stalled := false } := by
  unfold State.unstalled
  rw [setTrain_self]

variable (hd : (s.track.trains[t]).ride = some d) (hm : s.track.mode = .operating)
  (hp : hasPending s.track t = false) (ha : (s.track.trains[t]).atEnd = false)
include hd

include hm hp ha

theorem unstalled_mayForm : mayForm (s.unstalled t d).toTrack t { d with stalled := false } :=
  ⟨hm, hp, (atEnd_ride hd).symm.trans ha, rfl⟩

theorem orderLeg_ended (hs : selectStep s.routes[d.route] d.cursor d.frames = none) :
    orderLeg t o wait s = (s.put (closeEval s.env (routeEnd s.env t (s.unstalled t d))), .done []) := by
  have hf : formClaim s.env t d.cursor d.frames o wait (s.unstalled t d) = .ended :=
    formClaim_ended unstalled_ride (unstalled_mayForm hd hm hp ha) hs
  have hu : clearStalled t s.work = s.unstalled t d := clearStalled_eq hd
  unfold orderLeg
  simp only [hu, unstalled_ride, hf, doneWith]

theorem orderLeg_claims {k : Decision} {x y : RouteStep} {g : Leg}
    (hs : selectStep s.routes[d.route] d.cursor d.frames = some k) (hx : s.env.step d.route d.cursor = some x)
    (hy : s.env.step d.route k.target = some y) (hg : legBetween s.layout x.zone y.zone = some g) :
    orderLeg t o wait s = (s.put (closeEval s.env ((arriveClaim
      (.leg { train := t, origin := o, start := g.start, zones := g.zones, reqs := g.reqs, decision := k }) wait
      (s.unstalled t d)).modifyTrain t fun r => { r with state := .claiming })), .accepted) := by
  have hf := formClaim_leg (wait := wait) (o := o) unstalled_ride (unstalled_mayForm hd hm hp ha) hs hx hy hg
  have hu : clearStalled t s.work = s.unstalled t d := clearStalled_eq hd
  unfold orderLeg
  simp only [hu, unstalled_ride, hf]

end

/-! ### DISPATCH and CANCEL_DISPATCH (R116, R120) -/

section
variable {s : State} {p : PortId}

theorem performDispatch_role {n : Nat} {mark : Bool} (h : (s.ports[p]).role ≠ .station) :
    performDispatch p mark n s = refuse .role s := if_pos h

theorem performDispatch_argument {n : Nat} {mark : Bool} (h : (s.ports[p]).role = .station)
    (hz : ∀ (z : ZoneId) l, n = z.val → s.layout.zones[z] = some l → l.kind ≠ .station) :
    performDispatch p mark n s = refuse .argument s := by
  unfold performDispatch State.role
  rw [if_neg (not_not.2 h), stationZoneArg_none hz]

theorem performCancelDispatch_role {n : Nat} (h : (s.ports[p]).role ≠ .station) :
    performCancelDispatch p n s = refuse .role s := if_pos h

theorem performCancelDispatch_argument {n : Nat} (h : (s.ports[p]).role = .station)
    (hz : ∀ (z : ZoneId) l, n = z.val → s.layout.zones[z] = some l → l.kind ≠ .station) :
    performCancelDispatch p n s = refuse .argument s := by
  unfold performCancelDispatch State.role
  rw [if_neg (not_not.2 h), stationZoneArg_none hz]

section
variable {z : ZoneId} {l : ZoneLayout} (hr : (s.ports[p]).role = .station) (hz : s.layout.zones[z] = some l)
  (hk : l.kind = .station)
include hr hz hk

theorem performDispatch_station (mark : Bool) : performDispatch p mark z.val s =
    if l.owner = some p then tryDispatch p mark z s else refuse .role s := by
  unfold performDispatch State.role
  rw [if_neg (not_not.2 hr), stationZoneArg_some hz hk]
  simp only [ownerOf_eq hz]

theorem performCancelDispatch_station : performCancelDispatch p z.val s =
    if l.owner = some p then tryCancel z s else refuse .role s := by
  unfold performCancelDispatch State.role
  rw [if_neg (not_not.2 hr), stationZoneArg_some hz hk]
  simp only [ownerOf_eq hz]

end

variable {z : ZoneId}

theorem tryDispatch_mode (h : s.track.mode ≠ .operating) : tryDispatch p false z s = refuse .mode s := if_pos h

theorem tryDispatch_state (hm : s.track.mode = .operating) (h : ∀ t, ¬ standsFor s.env s.track z .dispatch t) :
    tryDispatch p false z s = refuse .state s := by
  unfold tryDispatch
  simp only [Bool.false_eq_true, if_false, hm, ne_eq, not_true_eq_false, standingFor_none h]

theorem tryDispatch_stands {t : TrainId} (hm : s.track.mode = .operating) (h : standsFor s.env s.track z .dispatch t) :
    tryDispatch p false z s =
      if readyActive s.env z then orderLeg t (.dispatch p) ((s.env.zone z).bind dispatchWaitMs) s else refuse .notReady s := by
  unfold tryDispatch
  simp only [Bool.false_eq_true, if_false, hm, ne_eq, not_true_eq_false, (standingFor_iff t).2 h]

theorem tryCancel_waiting {t : TrainId} (h : dispatchPhase s.track z = some (.waiting, t)) :
    tryCancel z s = doneWith (s.run (cancelDispatch t z)) := by
  unfold tryCancel
  rw [h]

theorem tryCancel_other (h : ∀ t, dispatchPhase s.track z ≠ some (.waiting, t)) : tryCancel z s = refuse .state s := by
  unfold tryCancel
  split
  · next t ht => exact absurd ht (h t)
  · rfl
  · rfl
  · rfl

/-! ### MOVE (R123) -/

theorem performMove_role {n : Nat} {mark : Bool} (h : (s.ports[p]).role ≠ .transfer) :
    performMove p mark n s = refuse .role s := if_pos h

theorem performMove_argument {n : Nat} {mark : Bool} (h : (s.ports[p]).role = .transfer)
    (hz : ∀ z : ZoneId, n = z.val → ¬ s.layout.stoppableZone z) : performMove p mark n s = refuse .argument s := by
  unfold performMove State.role
  rw [if_neg (not_not.2 h), stopZoneArg_none _ _ hz]

theorem performMove_stoppable {l : ZoneLayout} (hr : (s.ports[p]).role = .transfer) (hz : s.layout.zones[z] = some l)
    (hk : l.kind ≠ .run) (mark : Bool) : performMove p mark z.val s =
      if l.owner = some p then tryMove p mark z s else refuse .role s := by
  unfold performMove State.role
  rw [if_neg (not_not.2 hr), stopZoneArg_some _ _ ⟨l, hz, hk⟩]
  simp only [ownerOf_eq hz]

theorem tryMove_mode (h : s.track.mode ≠ .operating) : tryMove p false z s = refuse .mode s := if_pos h

theorem tryMove_state (hm : s.track.mode = .operating) (h : ∀ t, ¬ standsFor s.env s.track z .park t) :
    tryMove p false z s = refuse .state s := by
  unfold tryMove
  simp only [Bool.false_eq_true, if_false, hm, ne_eq, not_true_eq_false, standingFor_none h]

theorem tryMove_stands {t : TrainId} (hm : s.track.mode = .operating) (h : standsFor s.env s.track z .park t) :
    tryMove p false z s = orderLeg t (.move p) none s := by
  unfold tryMove
  simp only [Bool.false_eq_true, if_false, hm, ne_eq, not_true_eq_false, (standingFor_iff t).2 h]

end

end Sys2Proof.Machine

namespace Sys2Proof.Proofs
open Sys2Proof.Machine

/-- Settles O31: the examinations of the two orders, the accepted order by `orderLeg`, the phases and the dispatch in progress by
what each stands for. -/
theorem dispatchAndCancel : Obligations.DispatchAndCancel := by
  refine ⟨fun s p n h => ⟨fun hr => ?_, fun hr hbad => ?_, fun z l hr hn hz hk => ?_⟩,
    fun s p n h => ⟨fun hr => ?_, fun hr hbad => ?_, fun z l hr hn hz hk => ?_⟩, fun w t z => ?_, fun w t o => ?_,
    fun t x w => ?_⟩
  · exact idle_refuses h rfl rfl (performDispatch_role hr)
  · exact idle_refuses h rfl rfl (performDispatch_argument hr hbad)
  · subst hn
    have hpast := performDispatch_station hr hz hk
    refine ⟨fun ho => ?_, fun ho => (hpast true).trans (if_pos ho), fun ho hm => ?_, fun ho hm hno => ?_,
      fun t ho hm hst hnr => ?_, fun t d ho hm hst hready hd hp => ⟨fun hs => ?_, fun k a b g hs hx hy hg => ?_⟩⟩
    · exact idle_refuses h rfl rfl ((hpast false).trans (if_neg ho))
    all_goals have htry := (hpast false).trans (if_pos ho)
    · exact idle_refuses h rfl rfl (htry.trans (tryDispatch_mode hm))
    · exact idle_refuses h rfl rfl (htry.trans (tryDispatch_state hm hno))
    all_goals have hstands := htry.trans (tryDispatch_stands hm hst)
    · exact idle_refuses h rfl rfl (hstands.trans (if_neg (mt (readyActive_iff hz).1 hnr)))
    all_goals
      obtain ⟨-, -, -, ha⟩ := hst
      have horder := hstands.trans (if_pos ((readyActive_iff hz).2 hready))
    · exact idle_answers h rfl rfl (horder.trans (orderLeg_ended hd hm hp ha hs))
    · have hwait : (s.env.zone z).bind dispatchWaitMs = l.wait.bind fun x => if x = 0 then none else some (x * 1000) := by
        rw [← dispatchWaitMs_eq]
        exact congrArg (·.bind dispatchWaitMs) hz
      rw [hwait] at horder
      exact idle_answers h rfl rfl (horder.trans (orderLeg_claims hd hm hp ha hs hx hy hg))
  · exact idle_refuses h rfl rfl (performCancelDispatch_role hr)
  · exact idle_refuses h rfl rfl (performCancelDispatch_argument hr hbad)
  · subst hn
    have hpast := performCancelDispatch_station hr hz hk
    refine ⟨fun ho => ?_, fun ho hno => ?_, fun t c ho hp hc => ?_⟩
    · exact idle_refuses h rfl rfl (hpast.trans (if_neg ho))
    all_goals have htry := hpast.trans (if_pos ho)
    · exact idle_refuses h rfl rfl (htry.trans (tryCancel_other hno))
    · refine idle_answers h rfl rfl (htry.trans ((tryCancel_waiting hp).trans ?_))
      refine congrArg doneWith (run_congr ?_)
      exact congrArg (closeEval s.env) (abortClaimed_eq .cancel hc)
  · exact ⟨dispatchClaim_iff w t z, dispatchPhase_waiting_iff, dispatchPhase_setting_iff, dispatchPhase_cleared_iff⟩
  · constructor
    · intro hp
      rcases progressOrigin_some hp with ⟨hs, z, hf⟩ | hs
      · obtain ⟨c, g, xs, ys, hc⟩ := (progressOrigin_claiming hs hf).1 hp
        exact .inl ⟨z, c, g, xs, ys, hs, hf, hc⟩
      · exact .inr ⟨hs, (progressOrigin_cleared hs).1 hp⟩
    · rintro (⟨z, c, g, xs, ys, hs, hf, hc⟩ | ⟨hs, hg⟩)
      · exact (progressOrigin_claiming hs hf).2 ⟨c, g, xs, ys, hc⟩
      · exact (progressOrigin_cleared hs).2 hg
  · intro k
    have hk : k = abortCode x := by cases x <;> rfl
    rw [hk]
    exact ⟨fun p => rfl, fun p => rfl, rfl, rfl⟩

/-- Settles O32: the examination of MOVE, and the accepted order by `orderLeg`. -/
theorem move : Obligations.Move := by
  refine fun s p n h => ⟨fun hr => ?_, fun hr hbad => ?_, fun z l hr hn hz hk => ?_⟩
  · exact idle_refuses h rfl rfl (performMove_role hr)
  · refine idle_refuses h rfl rfl (performMove_argument hr fun z hn hstop => ?_)
    obtain ⟨l, hl, hk⟩ := hstop
    exact hk (hbad z l hn hl)
  · subst hn
    have hpast := performMove_stoppable hr hz hk
    refine ⟨fun ho => ?_, fun ho => (hpast true).trans (if_pos ho), fun ho hm => ?_, fun ho hm hno => ?_,
      fun t d ho hm hst hd hp => ⟨fun hs => ?_, fun k a b g hs hx hy hg => ?_⟩⟩
    · exact idle_refuses h rfl rfl ((hpast false).trans (if_neg ho))
    all_goals have htry := (hpast false).trans (if_pos ho)
    · exact idle_refuses h rfl rfl (htry.trans (tryMove_mode hm))
    · exact idle_refuses h rfl rfl (htry.trans (tryMove_state hm hno))
    all_goals
      have horder := htry.trans (tryMove_stands hm hst)
      obtain ⟨-, -, -, ha⟩ := hst
    · exact idle_answers h rfl rfl (horder.trans (orderLeg_ended hd hm hp ha hs))
    · exact idle_answers h rfl rfl (horder.trans (orderLeg_claims hd hm hp ha hs hx hy hg))

end Sys2Proof.Proofs
end

section
/-! SUPPORT. The supervisor's orders on trains (R69 to R72, R91): their conditions, and what PLACE_TRAIN, ASSIGN_ROUTE,
RETIRE_TRAIN, PROCEED and BREAK_LOOP come to. -/

namespace Sys2Proof.Machine

/-! ### Steps of sealed routes (R69, R70) -/

theorem sealedCount_isSome (r : Route) : (sealedCount r).isSome = true ↔ ∃ c w, r.state = .sealed c w := by
  unfold sealedCount
  cases r.state <;> simp

section
variable {r : Route} {c n : Nat} {wide : Bool} {z : ZoneId} (hr : r.state = .sealed c wide)
include hr

theorem sealedCount_sealed : sealedCount r = some c := by
  unfold sealedCount
  rw [hr]

theorem stepAt_some {q : StepId} (hn : n = q.val) (hc : n < c) (hz : (r.slots[q]).map (·.zone) = some z) :
    stepAt r n z = some q := by
  subst hn
  unfold stepAt
  rw [sealedCount_sealed hr, stepArg_val]
  exact if_pos ⟨hc, hz⟩

theorem stepAt_none (h : ∀ q : StepId, n = q.val → c ≤ n ∨ (r.slots[q]).map (·.zone) ≠ some z) : stepAt r n z = none := by
  unfold stepAt
  rw [sealedCount_sealed hr]
  cases hq : stepArg n with
  | none => rfl
  | some q =>
    refine if_neg fun hyes => ?_
    obtain ⟨hc, hz⟩ := hyes
    exact (h q (stepArg_some hq)).elim (Nat.not_le.2 hc) fun hne => hne hz

end

/-! ### PLACE_TRAIN (R69) -/

theorem unplaced_iff (r : Train) : r.unplaced = true ↔ r.state = .absent ∨ r.state = .lost := by
  unfold Train.unplaced
  rw [Bool.or_eq_true, decide_eq_true_eq, decide_eq_true_eq]

theorem placeable_cases (x : Option ZoneState) :
    placeable x = true ↔ x = some .clear ∨ x = some .unknown ∨ ∃ k, x = some (.fault k) := by
  cases x with
  | none => simp [placeable]
  | some x => cases x <;> simp [placeable]

/-- The route option names a route number in range (R69, step 3). -/
def optionInRange (o : RouteOption) : Prop := ∀ r k, o = .at r k → r < 8

/-- What a route option asks of the train and the routes (R69, step 4). -/
def optionFits (e : Env) (r : Train) (o : RouteOption) : Prop :=
  (o = .keep → r.state ≠ .absent ∧ r.ride ≠ none) ∧
    ∀ (n : RouteId) (k : Nat), o = .at n.val k → ∃ c w, (e.routes[n]).state = .sealed c w

theorem optionState_iff {e : Env} {r : Train} {o : RouteOption} (ho : optionInRange o) :
    optionState e r o = true ↔ optionFits e r o := by
  unfold optionFits optionState
  rcases o with _ | _ | ⟨n, k⟩
  · simp
  · simp [Option.isSome_iff_ne_none]
  · obtain ⟨q, rfl⟩ : ∃ q : RouteId, n = q.val := ⟨⟨n, ho n k rfl⟩, rfl⟩
    simp only [routeArg_val, sealedCount_isSome, reduceCtorEq, false_implies, true_and, RouteOption.at.injEq]
    constructor
    · rintro h m j ⟨hm, -⟩
      rw [← Fin.ext hm]
      exact h
    · exact fun h => h q k ⟨rfl, rfl⟩

theorem optionRoute_some {o : RouteOption} (ho : optionInRange o) : ∃ x, optionRoute o = some x := by
  rcases o with _ | _ | ⟨n, k⟩
  · exact ⟨_, rfl⟩
  · exact ⟨_, rfl⟩
  · obtain ⟨q, rfl⟩ : ∃ q : RouteId, n = q.val := ⟨⟨n, ho n k rfl⟩, rfl⟩
    exact ⟨some q, congrArg (Option.map some) (routeArg_val q)⟩

/-- The STATE conditions of a placement (R69, step 4). -/
def mayPlace (s : State) (t : TrainId) (z : ZoneId) (o : RouteOption) : Prop :=
  ((s.track.trains[t]).state = .absent ∨ (s.track.trains[t]).state = .lost) ∧
    (s.track.zoneState z = some .clear ∨ s.track.zoneState z = some .unknown ∨
      ∃ k, s.track.zoneState z = some (.fault k)) ∧ optionFits s.env s.track.trains[t] o

section
variable {s : State} {p : PortId} {t : TrainId} {z : ZoneId} {tag : Nat} {o : RouteOption}

theorem performPlaceTrain_refusal {n m : Nat} {r : Reason} (h : orderRefusal p s = some r) :
    performPlaceTrain p n m tag o s = refuse r s := by
  unfold performPlaceTrain
  rw [h]

theorem performPlaceTrain_argument {n m : Nat} (hs : s.orderable p)
    (h : 8 ≤ n ∨ (∀ z : ZoneId, m = z.val → ¬ s.layout.stoppableZone z) ∨ (∃ r k, o = .at r k ∧ 8 ≤ r)) :
    performPlaceTrain p n m tag o s = refuse .argument s := by
  unfold performPlaceTrain
  rw [orderRefusal_none s hs]
  dsimp only
  split
  · next t z x ht hz ho =>
    rcases h with hn | hm | ⟨r, k, rfl, hr⟩
    · rw [trainArg_none hn] at ht
      cases ht
    · rw [stopZoneArg_none _ _ hm] at hz
      cases hz
    · unfold optionRoute at ho
      dsimp only at ho
      rw [routeArg_none hr] at ho
      cases ho
  · rfl

theorem performPlaceTrain_past (hs : s.orderable p) (hz : s.layout.stoppableZone z) (ho : optionInRange o) :
    performPlaceTrain p t.val z.val tag o s = tryPlace t z tag o s := by
  obtain ⟨x, hx⟩ := optionRoute_some ho
  unfold performPlaceTrain
  simp only [orderRefusal_none s hs, trainArg_val, stopZoneArg_some _ _ hz, hx]

variable (ho : optionInRange o)
include ho

theorem placement_conditions : ((s.track.trains[t]).unplaced && placeable (s.track.zoneState z) &&
    optionState s.env (s.track.trains[t]) o) = true ↔ mayPlace s t z o := by
  unfold mayPlace
  rw [Bool.and_eq_true, Bool.and_eq_true, unplaced_iff, placeable_cases, optionState_iff ho, and_assoc]

theorem tryPlace_state (h : ¬ mayPlace s t z o) : tryPlace t z tag o s = refuse .state s :=
  if_pos (eq_false_of_ne_true (mt (placement_conditions ho).1 h))

variable (h : mayPlace s t z o)
include h

theorem tryPlace_argument (hq : placement s.env (s.track.trains[t]) z o = none) : tryPlace t z tag o s = refuse .argument s := by
  unfold tryPlace
  rw [(placement_conditions ho).2 h, hq]
  rfl

theorem tryPlace_places {q : TrainState × Option Ride} (hq : placement s.env (s.track.trains[t]) z o = some q) :
    tryPlace t z tag o s = doneWith (s.run (place t z tag q)) := by
  unfold tryPlace
  rw [(placement_conditions ho).2 h, hq]
  rfl

end

section
variable {e : Env} {w : Work} {t : TrainId} {z : ZoneId} {tag : Nat}

/-- A train placed without a route acts on no step. -/
theorem place_stored {d : Option Ride} : place t z tag (.stored, d) e w =
    closeEvent e ((w.setZone z (.occupied t)).setTrain t (placedTrain z tag (.stored, d))) := by
  unfold place actIfStanding
  rw [setTrain_self]
  rfl

theorem place_standing {d : Option Ride} : place t z tag (.standing, d) e w =
    closeEvent e (actOnStep e t ((w.setZone z (.occupied t)).setTrain t (placedTrain z tag (.standing, d)))) := by
  unfold place actIfStanding
  rw [setTrain_self]
  rfl

variable {r : Train}

theorem placement_keep_here (h : (e.cursorStep r).map (·.zone) = some z) :
    placement e r z .keep = some (.standing, r.ride.map fun d => { d with stalled := false }) := if_pos h

theorem placement_keep_elsewhere (h : (e.cursorStep r).map (·.zone) ≠ some z) : placement e r z .keep = none := if_neg h

theorem placement_at (n : RouteId) (k : Nat) : placement e r z (.at n.val k) =
    (stepAt (e.routes[n]) k z).map fun q => (.standing, some (startRide n (e.routes[n]) q)) := by
  unfold placement
  simp only [routeArg_val]

end

/-! ### ASSIGN_ROUTE (R70) -/

section
variable {s : State} {p : PortId} {t : TrainId} {r : RouteId} {m : Nat}

theorem performAssignRoute_refusal {n k : Nat} {x : Reason} (h : orderRefusal p s = some x) :
    performAssignRoute p n k m s = refuse x s := by
  unfold performAssignRoute
  rw [h]

theorem performAssignRoute_argument {n k : Nat} (hs : s.orderable p) (h : 8 ≤ n ∨ 8 ≤ k) :
    performAssignRoute p n k m s = refuse .argument s := by
  unfold performAssignRoute
  rw [orderRefusal_none s hs]
  dsimp only
  split
  · next t r ht hr =>
    rcases h with hn | hk
    · rw [trainArg_none hn] at ht
      cases ht
    · rw [routeArg_none hk] at hr
      cases hr
  · rfl

theorem performAssignRoute_past (hs : s.orderable p) : performAssignRoute p t.val r.val m s = tryAssign t r m s := by
  unfold performAssignRoute
  simp only [orderRefusal_none s hs, trainArg_val, routeArg_val]

theorem tryAssign_state (h : (s.track.trains[t]).state ≠ .stored ∨ ∀ c w, (s.routes[r]).state ≠ .sealed c w) :
    tryAssign t r m s = refuse .state s := by
  refine if_pos (h.imp_right fun hr => ?_)
  rw [Option.isNone_iff_eq_none, Option.eq_none_iff_forall_ne_some]
  intro c hc
  obtain ⟨c, w, hcw⟩ := (sealedCount_isSome _).1 (Option.isSome_iff_exists.2 ⟨c, hc⟩)
  exact hr c w hcw

variable {c : Nat} {wide : Bool} (hst : (s.track.trains[t]).state = .stored) (hr : (s.routes[r]).state = .sealed c wide)
include hst hr

theorem assignable : ¬((s.track.trains[t]).state ≠ .stored ∨ (sealedCount (s.routes[r])).isNone = true) := by
  rw [sealedCount_sealed hr]
  exact not_or.2 ⟨not_not.2 hst, Bool.false_ne_true⟩

theorem tryAssign_argument (h : ∀ q : StepId, m = q.val → c ≤ m ∨ ∀ z, (s.track.trains[t]).footprint = [z] →
    ((s.routes[r]).slots[q]).map (·.zone) ≠ some z) : tryAssign t r m s = refuse .argument s := by
  have hstep : ((s.track.trains[t]).rest.bind fun z => stepAt (s.routes[r]) m z) = none := by
    rw [Option.bind_eq_none_iff]
    exact fun z hz => stepAt_none hr fun q hq => (h q hq).imp_right fun hne => hne z (rest_some.1 hz)
  unfold tryAssign
  rw [if_neg (assignable hst hr), hstep]

theorem tryAssign_assigns {q : StepId} {z : ZoneId} (hm : m = q.val) (hc : m < c) (hf : (s.track.trains[t]).footprint = [z])
    (hz : ((s.routes[r]).slots[q]).map (·.zone) = some z) :
    tryAssign t r m s = doneWith (s.run (assign t (startRide r (s.routes[r]) q))) := by
  have hstep : ((s.track.trains[t]).rest.bind fun z => stepAt (s.routes[r]) m z) = some q := by
    rw [rest_some.2 hf]
    exact stepAt_some hr hm hc hz
  unfold tryAssign
  rw [if_neg (assignable hst hr), hstep]

end

/-! ### RETIRE_TRAIN (R71) -/

section
variable {s : State} {p : PortId} {t : TrainId}

theorem dispositionArg_none {d : Nat} (h : d ≠ 1 ∧ d ≠ 2) : dispositionArg d = none := by
  unfold dispositionArg
  split
  · exact absurd rfl h.1
  · exact absurd rfl h.2
  · rfl

theorem performRetireTrain_refusal {n d : Nat} {r : Reason} (h : orderRefusal p s = some r) :
    performRetireTrain p n d s = refuse r s := by
  unfold performRetireTrain
  rw [h]

theorem performRetireTrain_argument {n d : Nat} (hs : s.orderable p) (h : 8 ≤ n ∨ (d ≠ 1 ∧ d ≠ 2)) :
    performRetireTrain p n d s = refuse .argument s := by
  unfold performRetireTrain
  rw [orderRefusal_none s hs]
  dsimp only
  split
  · next t q ht hq =>
    rcases h with hn | hd
    · rw [trainArg_none hn] at ht
      cases ht
    · rw [dispositionArg_none hd] at hq
      cases hq
  · rfl

theorem performRetireTrain_past {d : Nat} {q : Disposition} (hs : s.orderable p) (hd : dispositionArg d = some q) :
    performRetireTrain p t.val d s = tryRetire t q s := by
  unfold performRetireTrain
  simp only [orderRefusal_none s hs, trainArg_val, hd]

theorem tryRetire_store (h : (s.track.trains[t]).state = .standing ∨ (s.track.trains[t]).state = .claiming) :
    tryRetire t .store s = doneWith (s.run (retireStore t)) := by
  unfold tryRetire
  rcases h with h | h <;> rw [h]

theorem tryRetire_store_state (hs : (s.track.trains[t]).state ≠ .standing) (hc : (s.track.trains[t]).state ≠ .claiming) :
    tryRetire t .store s = refuse .state s := by
  unfold tryRetire
  split
  · next h => exact absurd h hs
  · next h => exact absurd h hc
  · contradiction
  · contradiction
  · rfl

theorem tryRetire_remove (h : (s.track.trains[t]).state = .stored ∨ (s.track.trains[t]).state = .lost) :
    tryRetire t .remove s = doneWith (s.run (retireRemove t)) := by
  unfold tryRetire
  rcases h with h | h <;> rw [h]

theorem tryRetire_remove_state (hs : (s.track.trains[t]).state ≠ .stored) (hl : (s.track.trains[t]).state ≠ .lost) :
    tryRetire t .remove s = refuse .state s := by
  unfold tryRetire
  split
  · contradiction
  · contradiction
  · next h => exact absurd h hs
  · next h => exact absurd h hl
  · rfl

end

/-! ### PROCEED (R72) -/

theorem awaitsMaster_false (a : Option StepAction) : awaitsMaster a = false ↔ a ≠ some .dispatch ∧ a ≠ some .park := by
  cases a with
  | none => simp [awaitsMaster]
  | some a => cases a <;> simp [awaitsMaster]

theorem mayProceed_iff (e : Env) (r : Train) : mayProceed e r = true ↔ r.state = .standing ∧ r.atEnd = false ∧
    e.cursorAction r ≠ some .dispatch ∧ e.cursorAction r ≠ some .park := by
  unfold mayProceed
  rw [Bool.and_eq_true, Bool.and_eq_true, decide_eq_true_eq, Bool.not_eq_true', Bool.not_eq_true', awaitsMaster_false, and_assoc]

section
variable {s : State} {p : PortId} {n : Nat}

theorem performProceed_role (h : p ≠ 0) : performProceed p n s = refuse .role s := if_pos h

section
variable (hp : p = 0)
include hp

theorem performProceed_mode (h : s.track.mode ≠ .operating) : performProceed p n s = refuse .mode s := by
  unfold performProceed
  rw [if_neg (not_not.2 hp), if_pos h]

variable (hm : s.track.mode = .operating)
include hm

theorem performProceed_argument (h : 8 ≤ n) : performProceed p n s = refuse .argument s := by
  unfold performProceed
  rw [if_neg (not_not.2 hp), if_neg (not_not.2 hm), trainArg_none h]

theorem performProceed_past (t : TrainId) : performProceed p t.val s =
    if mayProceed s.env (s.track.trains[t]) then (s.run (proceed t), .accepted) else refuse .state s := by
  unfold performProceed
  rw [if_neg (not_not.2 hp), if_neg (not_not.2 hm), trainArg_val]

end

/-! ### BREAK_LOOP (R91) -/

/-- The innermost frame is the last. -/
theorem onInnermost_append (f : Frame → Frame) (fs : List Frame) (x : Frame) : onInnermost f (fs ++ [x]) = fs ++ [f x] := by
  induction fs with
  | nil => rfl
  | cons y ys ih =>
    cases ys with
    | nil => rfl
    | cons z zs => exact congrArg (y :: ·) ih

theorem frames_nil {r : Train} (h : ∀ d, r.ride = some d → d.frames = []) : r.frames = [] := by
  unfold Train.frames
  cases hd : r.ride with
  | none => rfl
  | some d => exact h d hd

theorem breakLoop_eq {r : Train} {d : Ride} {fs : List Frame} {f : Frame} (hd : r.ride = some d) (hf : d.frames = fs ++ [f]) :
    r.breakLoop = { r with ride := some { d with frames := fs ++ [{ f with broken := true }] } } := by
  unfold Train.breakLoop Train.mapRide
  rw [hd, Option.map_some, hf, onInnermost_append]
  rfl

theorem performBreakLoop_refusal {r : Reason} (h : orderRefusal p s = some r) : performBreakLoop p n s = refuse r s := by
  unfold performBreakLoop
  rw [h]

theorem performBreakLoop_argument (hs : s.orderable p) (h : 8 ≤ n) : performBreakLoop p n s = refuse .argument s := by
  unfold performBreakLoop
  rw [orderRefusal_none s hs, trainArg_none h]

theorem performBreakLoop_past (hs : s.orderable p) (t : TrainId) : performBreakLoop p t.val s =
    if (s.track.trains[t]).frames.isEmpty then refuse .state s
    else doneWith (s.run fun _ w => w.modifyTrain t Train.breakLoop) := by
  unfold performBreakLoop
  rw [orderRefusal_none s hs, trainArg_val]

end

end Sys2Proof.Machine

namespace Sys2Proof.Proofs
open Sys2Proof.Machine

/-- Settles O27: the examination in the order of R69, then the placement by its route option. -/
theorem placeTrain : Obligations.PlaceTrain := by
  refine fun s p n m tag o h => ⟨fun hp => ?_, fun hp hc => ?_, fun hs hbad => ?_, fun t z hs hn hm hz ho => ?_⟩
  · exact idle_refuses h rfl rfl (performPlaceTrain_refusal (orderRefusal_role s hp))
  · exact idle_refuses h rfl rfl (performPlaceTrain_refusal (orderRefusal_mode s hp hc))
  · exact idle_refuses h rfl rfl (performPlaceTrain_argument hs hbad)
  · subst hn hm
    have hpast := performPlaceTrain_past (t := t) (tag := tag) hs hz ho
    refine ⟨fun hno => ?_, fun hfit hopt => ?_, fun hfit hopt hq => ?_, fun hfit hopt hq => ?_,
      fun r k c wide hfit hopt hr => ⟨fun hq => ?_, fun q hk hc hq => ?_⟩⟩
    · exact idle_refuses h rfl rfl (hpast.trans (tryPlace_state ho hno))
    · subst hopt
      refine idle_answers h rfl rfl (hpast.trans ((tryPlace_places ho hfit rfl).trans ?_))
      exact congrArg doneWith (run_congr place_stored)
    · subst hopt
      exact idle_refuses h rfl rfl (hpast.trans (tryPlace_argument ho hfit (placement_keep_elsewhere hq)))
    · subst hopt
      refine idle_answers h rfl rfl (hpast.trans ((tryPlace_places ho hfit (placement_keep_here hq)).trans ?_))
      exact congrArg doneWith (run_congr place_standing)
    · subst hopt
      refine idle_refuses h rfl rfl (hpast.trans (tryPlace_argument ho hfit ?_))
      rw [placement_at, show stepAt (s.env.routes[r]) k z = none from stepAt_none hr hq]
      rfl
    · subst hopt
      have hplace : placement s.env (s.track.trains[t]) z (.at r.val k) =
          some (.standing, some (startRide r (s.routes[r]) q)) := by
        rw [placement_at, show stepAt (s.env.routes[r]) k z = some q from stepAt_some hr hk hc hq]
        rfl
      refine idle_answers h rfl rfl (hpast.trans ((tryPlace_places ho hfit hplace).trans ?_))
      exact congrArg doneWith (run_congr place_standing)

/-- Settles O28: the examinations in the order of R70 and R71, then the assignment, and the disposition by the train's state. -/
theorem assignAndRetire : Obligations.AssignAndRetire := by
  refine ⟨fun s p n m k h => ⟨fun hp => ?_, fun hp hc => ?_, fun hs hbad => ?_, fun t r hs hn hm =>
      ⟨fun hbad => ?_, fun c wide hst hr => ⟨fun hq => ?_, fun q z hk hc hf hq => ?_⟩⟩⟩,
    fun s p n d h => ⟨fun hp => ?_, fun hp hc => ?_, fun hs hbad => ?_, fun t hs hn =>
      ⟨fun hd h1 h2 => ?_, fun hd hx => ?_, fun hd h1 h2 => ?_, fun hd hx => ?_⟩⟩⟩
  · exact idle_refuses h rfl rfl (performAssignRoute_refusal (orderRefusal_role s hp))
  · exact idle_refuses h rfl rfl (performAssignRoute_refusal (orderRefusal_mode s hp hc))
  · exact idle_refuses h rfl rfl (performAssignRoute_argument hs hbad)
  · subst hn hm
    exact idle_refuses h rfl rfl ((performAssignRoute_past hs).trans (tryAssign_state hbad))
  · subst hn hm
    exact idle_refuses h rfl rfl ((performAssignRoute_past hs).trans (tryAssign_argument hst hr hq))
  · subst hn hm
    exact idle_answers h rfl rfl ((performAssignRoute_past hs).trans (tryAssign_assigns hst hr hk hc hf hq))
  · exact idle_refuses h rfl rfl (performRetireTrain_refusal (orderRefusal_role s hp))
  · exact idle_refuses h rfl rfl (performRetireTrain_refusal (orderRefusal_mode s hp hc))
  · exact idle_refuses h rfl rfl (performRetireTrain_argument hs hbad)
  · subst hn hd
    exact idle_refuses h rfl rfl ((performRetireTrain_past hs rfl).trans (tryRetire_store_state h1 h2))
  · subst hn hd
    exact idle_answers h rfl rfl ((performRetireTrain_past hs rfl).trans (tryRetire_store hx))
  · subst hn hd
    exact idle_refuses h rfl rfl ((performRetireTrain_past hs rfl).trans (tryRetire_remove_state h1 h2))
  · subst hn hd
    refine idle_answers h rfl rfl ((performRetireTrain_past hs rfl).trans ((tryRetire_remove hx).trans ?_))
    refine congrArg doneWith (run_congr ?_)
    unfold retireRemove vacateUnknown Train.rest
    rcases (s.work.trains[t]).footprint with _ | ⟨z, _ | ⟨y, ys⟩⟩ <;> rfl

/-- Settles O30: the examinations in the order of R72 and R91, the innermost frame by `onInnermost_append`. -/
theorem proceedAndBreakLoop : Obligations.ProceedAndBreakLoop := by
  refine ⟨fun s p n h => ⟨fun hp => ?_, fun hp hm => ?_, fun hp hm hn => ?_, fun t hp hm hn => ⟨fun hno => ?_, fun hfit => ?_⟩⟩,
    fun s p n h => ⟨fun hp => ?_, fun hp hc => ?_, fun hs hn => ?_, fun t hs hn => ⟨fun hno => ?_, fun d fs f hd hf => ?_⟩⟩⟩
  · exact idle_refuses h rfl rfl (performProceed_role hp)
  · exact idle_refuses h rfl rfl (performProceed_mode hp hm)
  · exact idle_refuses h rfl rfl (performProceed_argument hp hm hn)
  · subst hn
    exact idle_refuses h rfl rfl ((performProceed_past hp hm t).trans (if_neg (mt (mayProceed_iff ..).1 hno)))
  · subst hn
    exact idle_answers h rfl rfl ((performProceed_past hp hm t).trans (if_pos ((mayProceed_iff ..).2 hfit)))
  · exact idle_refuses h rfl rfl (performBreakLoop_refusal (orderRefusal_role s hp))
  · exact idle_refuses h rfl rfl (performBreakLoop_refusal (orderRefusal_mode s hp hc))
  · exact idle_refuses h rfl rfl (performBreakLoop_argument hs hn)
  · subst hn
    exact idle_refuses h rfl rfl ((performBreakLoop_past hs t).trans (if_pos (by rw [frames_nil hno]; rfl)))
  · subst hn
    have hframes : ¬ (s.track.trains[t]).frames.isEmpty = true := by
      unfold Train.frames
      rw [hd, Option.map_some, Option.getD_some, hf]
      simp
    refine idle_answers h rfl rfl ((performBreakLoop_past hs t).trans ((if_neg hframes).trans (congrArg doneWith ?_)))
    rw [← breakLoop_eq hd hf]
    exact put_quiet s _ rfl

end Sys2Proof.Proofs
end

section
/-! SUPPORT. The route commands LOAD_STEP, CLEAR_ROUTE and SEAL_ROUTE (R78 to R80): the fields they store, and what each comes
to behind ROLE and MODE. -/

namespace Sys2Proof.Machine

/-! ### The fields of LOAD_STEP (R78) -/

/-- The action stored is the one given; only that of a HOLD step has a dwell, and only there it has a range. -/
theorem storedAction_cases (d : Nat) (x : Action) (a : StepAction) : storedAction d x = some a ↔
    (x = .pass ∧ a = .pass) ∨ (x = .hold ∧ a = .hold d ∧ d ≤ 255) ∨ (x = .dispatch ∧ a = .dispatch) ∨
      (x = .park ∧ a = .park) := by
  cases x with
  | pass | dispatch | park => simp [storedAction, eq_comm]
  | hold => simp [storedAction, inRange, eq_comm, and_comm]

theorem storedAction_defined {d : Nat} {x : Action} (h : x = .hold → d ≤ 255) : ∃ a, storedAction d x = some a := by
  simp only [storedAction_cases]
  cases x with
  | pass => exact ⟨.pass, by simp⟩
  | hold => exact ⟨.hold d, by simpa using h⟩
  | dispatch => exact ⟨.dispatch, by simp⟩
  | park => exact ⟨.park, by simp⟩

theorem openerCountOk_iff (x : OpenerKind) : openerCountOk x = true ↔ ∀ n, x = .counted n → n ≤ 255 := by
  cases x with
  | counted n => simp [openerCountOk, inRange]
  | forever => simp [openerCountOk]

/-- An opener given is stored where its end step is one beyond the step and its count in range. -/
theorem storedOpener_given (k : StepId) (x : OpenerKind) (n : Nat) : storedOpener k (some (x, n)) = (stepArg n).bind fun e =>
    if k < e ∧ openerCountOk x = true then some (some { kind := x, endStep := e }) else none := by
  cases he : stepArg n <;> simp [storedOpener, he]

/-- An opener is stored with the fields given, its end step beyond the step that carries it. -/
theorem storedOpener_some (k : StepId) (o : Option (OpenerKind × Nat)) (y : Option Opener) : storedOpener k o = some y ↔
    y.map (fun q => (q.kind, q.endStep.val)) = o ∧ ∀ q, y = some q → k < q.endStep ∧ openerCountOk q.kind = true := by
  cases o with
  | none => cases y <;> simp [storedOpener]
  | some o =>
    obtain ⟨x, e⟩ := o
    rw [storedOpener_given, Option.bind_eq_some_iff]
    constructor
    · rintro ⟨j, hj, hy⟩
      split at hy
      · next hok =>
        cases hy
        exact ⟨by rw [stepArg_some hj]; rfl, fun q hq => by cases hq; exact hok⟩
      · cases hy
    · rintro ⟨hy, hok⟩
      obtain ⟨q, rfl, hq⟩ := Option.map_eq_some_iff.1 hy
      cases hq
      exact ⟨q.endStep, stepArg_val _, if_pos (hok q rfl)⟩

theorem storedOpener_defined (k : StepId) (o : Option (OpenerKind × Nat)) : (∃ y, storedOpener k o = some y) ↔
    ∀ x e, o = some (x, e) → k.val < e ∧ e ≤ 15 ∧ ∀ n, x = .counted n → n ≤ 255 := by
  simp only [storedOpener_some]
  constructor
  · rintro ⟨y, hy, hok⟩ x e ho
    obtain ⟨q, rfl, hq⟩ := Option.map_eq_some_iff.1 (hy.trans ho)
    cases hq
    obtain ⟨hlt, hcount⟩ := hok q rfl
    exact ⟨hlt, Nat.le_of_lt_succ q.endStep.isLt, (openerCountOk_iff _).1 hcount⟩
  · intro h
    cases o with
    | none => exact ⟨none, rfl, nofun⟩
    | some o =>
      obtain ⟨hlt, hle, hcount⟩ := h o.1 o.2 rfl
      refine ⟨some { kind := o.1, endStep := ⟨o.2, by omega⟩ }, rfl, fun q hq => ?_⟩
      cases hq
      exact ⟨hlt, (openerCountOk_iff _).2 hcount⟩

/-! ### The slot LOAD_STEP leaves behind (R78) -/

section
variable {l : Layout} {k : StepId} {f : StepFields}

/-- A slot is written for admissible fields alone. -/
theorem slotOf_none (h : ¬ stepAdmissible l k f) : slotOf l k f = none := by
  rw [Option.eq_none_iff_forall_ne_some]
  intro y hy
  unfold slotOf at hy
  split at hy
  · cases hy
  · next o ho =>
    have hopener := (storedOpener_defined k f.opener).1 ⟨o, ho⟩
    split at hy
    · next ha => exact h ⟨fun hne => absurd ha hne, fun hh => (nomatch ha.symm.trans hh), hopener⟩
    · next x hx =>
      split at hy
      · next z a hz ha =>
        split at hy
        · next hstop =>
          refine h ⟨fun _ => ⟨z, zoneArg_some hz, (isStop_iff l z).1 hstop⟩, fun hh => ?_, hopener⟩
          obtain rfl : x = .hold := Option.some.inj (hx.symm.trans hh)
          obtain ⟨_, hd⟩ : a = .hold f.dwell ∧ f.dwell ≤ 255 := by simpa using (storedAction_cases ..).1 ha
          exact hd
        · cases hy
      · cases hy

/-- The action NONE makes the slot empty. -/
theorem slotOf_empty (h : stepAdmissible l k f) (ha : f.action = none) : slotOf l k f = some none := by
  obtain ⟨_, _, hopener⟩ := h
  obtain ⟨o, ho⟩ := (storedOpener_defined k f.opener).2 hopener
  unfold slotOf
  rw [ho, ha]

/-- Any other action puts the step's record in it. -/
theorem slotOf_record (h : stepAdmissible l k f) (ha : f.action ≠ none) :
    ∃ y, stepStores f y ∧ slotOf l k f = some (some y) := by
  obtain ⟨hzone, hdwell, hopener⟩ := h
  obtain ⟨z, hz, hstop⟩ := hzone ha
  obtain ⟨x, hx⟩ := Option.ne_none_iff_exists'.1 ha
  obtain ⟨o, ho⟩ := (storedOpener_defined k f.opener).2 hopener
  obtain ⟨a, hstored⟩ := storedAction_defined fun hh => hdwell (hx.trans (congrArg some hh))
  refine ⟨{ zone := z, action := a, opener := o }, ?_, ?_⟩
  · obtain ⟨hfields, _⟩ := (storedOpener_some ..).1 ho
    obtain ⟨rfl, rfl⟩ | ⟨rfl, rfl, _⟩ | ⟨rfl, rfl⟩ | ⟨rfl, rfl⟩ := (storedAction_cases ..).1 hstored
    · exact ⟨hz.symm, hx, nofun, hfields⟩
    · exact ⟨hz.symm, hx, fun d hd => by cases hd; rfl, hfields⟩
    · exact ⟨hz.symm, hx, nofun, hfields⟩
    · exact ⟨hz.symm, hx, nofun, hfields⟩
  · unfold slotOf
    rw [ho, hx]
    simp only [hz, zoneArg_val, hstored]
    exact if_pos ((isStop_iff l z).2 hstop)

end

theorem slotsEmpty_iff (v : Vector (Option RouteStep) 16) : slotsEmpty v = true ↔ ∀ k : StepId, v[k] = none := by
  simp only [slotsEmpty, stepIds, List.all_eq_true, List.mem_finRange, forall_const, Option.isNone_iff_eq_none]

/-- A route with a loaded slot becomes DRAFT, one without becomes EMPTY. -/
theorem redraft_draft {v : Vector (Option RouteStep) 16} {k : StepId} (h : v[k] ≠ none) :
    redraft v = { state := .draft, slots := v } := by
  unfold redraft
  rw [if_neg fun he => h ((slotsEmpty_iff v).1 he k)]

theorem redraft_empty {v : Vector (Option RouteStep) 16} (h : ∀ k : StepId, v[k] = none) :
    redraft v = { state := .empty, slots := v } := by
  unfold redraft
  rw [if_pos ((slotsEmpty_iff v).2 h)]

/-! ### The commands -/

section
variable {s : State} {p : PortId} {n m : Nat} {x : Reason} {r : RouteId} {k : StepId} {f : StepFields}

theorem performLoadStep_refusal (h : routeRefusal p s = some x) : performLoadStep p n m f s = refuse x s := by
  unfold performLoadStep
  rw [h]

theorem performLoadStep_argument (hs : s.orderable p)
    (h : 8 ≤ n ∨ 16 ≤ m ∨ ∃ k : StepId, m = k.val ∧ slotOf s.layout k f = none) :
    performLoadStep p n m f s = refuse .argument s := by
  have hslot : stepSlot s.layout n m f = none := by
    unfold stepSlot
    rcases h with hn | hm | ⟨k, rfl, hk⟩
    · rw [routeArg_none hn]
    · rw [stepArg_none hm]
      cases routeArg n <;> rfl
    · cases routeArg n <;> simp only [stepArg_val, hk, Option.map_none]
  unfold performLoadStep
  rw [routeRefusal_none s hs, hslot]

theorem performLoadStep_past (hs : s.orderable p) {y : Option RouteStep} (hy : slotOf s.layout k f = some y) :
    performLoadStep p r.val k.val f s = if routeHeld s.track r then refuse .busy s
      else doneWith (s.setRoute r (redraft ((s.routes[r]).slots.set k y))) := by
  have hslot : stepSlot s.layout r.val k.val f = some (r, k, y) := by
    unfold stepSlot
    simp only [routeArg_val, stepArg_val, hy, Option.map_some]
  unfold performLoadStep
  rw [routeRefusal_none s hs, hslot]

theorem performClearRoute_refusal (h : routeRefusal p s = some x) : performClearRoute p n s = refuse x s := by
  unfold performClearRoute
  rw [h]

theorem performClearRoute_argument (hs : s.orderable p) (hn : 8 ≤ n) : performClearRoute p n s = refuse .argument s := by
  unfold performClearRoute
  rw [routeRefusal_none s hs, routeArg_none hn]

theorem performClearRoute_past (hs : s.orderable p) : performClearRoute p r.val s =
    if routeHeld s.track r then refuse .busy s else doneWith (s.setRoute r Route.cleared) := by
  unfold performClearRoute
  rw [routeRefusal_none s hs, routeArg_val]

section
variable {count : Nat} {wide : Bool}

theorem performSealRoute_refusal (h : routeRefusal p s = some x) : performSealRoute p n count wide s = refuse x s := by
  unfold performSealRoute
  rw [h]

theorem performSealRoute_argument (hs : s.orderable p) (h : 8 ≤ n ∨ count = 0 ∨ 17 ≤ count) :
    performSealRoute p n count wide s = refuse .argument s := by
  unfold performSealRoute
  rw [routeRefusal_none s hs]
  rcases h with hn | hcount
  · rw [routeArg_none hn]
  · have hout : inRange 1 16 count = false := eq_false_of_ne_true fun hr => by
      have := (inRange_iff ..).1 hr
      omega
    cases routeArg n with
    | none => rfl
    | some r => exact if_pos hout

variable (hs : s.orderable p) (h1 : 1 ≤ count) (h16 : count ≤ 16)
include hs h1 h16

/-- Past its first three examinations the route decides. -/
theorem performSealRoute_past : performSealRoute p r.val count wide s =
    if routeHeld s.track r then refuse .busy s
    else if (s.routes[r]).state = .draft then sealDraft r count wide s else refuse .state s := by
  have hin : ¬ inRange 1 16 count = false := ne_false_of_eq_true ((inRange_iff ..).2 ⟨h1, h16⟩)
  unfold performSealRoute
  simp only [routeRefusal_none s hs, routeArg_val, if_neg hin]
  cases (s.routes[r]).state <;> rfl

end

theorem sealDraft_invalid {count c : Nat} {wide : Bool} {y : CheckSubject}
    (h : sealChecks s.layout (s.routes[r]) count wide = some (c, y)) : sealDraft r count wide s = (s, .invalid c y) := by
  unfold sealDraft
  rw [h]

theorem sealDraft_seals {count : Nat} {wide : Bool} (h : sealChecks s.layout (s.routes[r]) count wide = none) :
    sealDraft r count wide s =
      doneWith (s.setRoute r { state := .sealed count wide, slots := (s.routes[r]).slots }) := by
  unfold sealDraft
  rw [h]

end

end Sys2Proof.Machine

namespace Sys2Proof.Proofs
open Sys2Proof.Machine

/-- Settles O19: the slot by `slotOf_none`, `slotOf_record` and `slotOf_empty`, the route's state by the slots left loaded. -/
theorem loadStep : Obligations.LoadStep := by
  refine fun s p n m f h => ⟨fun hp => ?_, fun hp hc => ?_, fun hs hbad => ?_, fun r k hs hn hm => ?_⟩
  · exact idle_refuses h rfl rfl (performLoadStep_refusal (routeRefusal_role s hp))
  · exact idle_refuses h rfl rfl (performLoadStep_refusal (routeRefusal_mode s hp hc))
  · exact idle_refuses h rfl rfl (performLoadStep_argument hs (hbad.imp_right .inl))
  subst hn hm
  have stores {y : Option RouteStep} {x : Route} (hu : ¬ s.track.routeInUse r) (hy : slotOf s.layout k f = some y)
      (hx : redraft ((s.routes[r]).slots.set k y) = x) :
      exec (.loadStep p r.val k.val f) s = .next (replied p 0x18 (.done []) (s.setRoute r x)) :=
    idle_answers h rfl rfl (hx ▸ (performLoadStep_past hs hy).trans (if_neg (mt (routeHeld_iff ..).1 hu)))
  refine ⟨fun hbad => ?_, fun hok hu => ?_, fun ha hok hu => ?_, fun ha hok hu hj => ?_, fun ha hok hu hj => ?_⟩
  · exact idle_refuses h rfl rfl (performLoadStep_argument hs (.inr (.inr ⟨k, rfl, slotOf_none hbad⟩)))
  · obtain ⟨y, hy⟩ : ∃ y, slotOf s.layout k f = some y := by
      by_cases ha : f.action = none
      · exact ⟨none, slotOf_empty hok ha⟩
      · obtain ⟨y, _, hy⟩ := slotOf_record hok ha
        exact ⟨some y, hy⟩
    exact idle_refuses h rfl rfl ((performLoadStep_past hs hy).trans (if_pos ((routeHeld_iff ..).2 hu)))
  · obtain ⟨y, hstores, hy⟩ := slotOf_record hok ha
    exact ⟨y, hstores, stores hu hy (redraft_draft (k := k) (by rw [vector_get_set, if_pos rfl]; exact nofun))⟩
  · obtain ⟨j, hne, hload⟩ := hj
    exact stores hu (slotOf_empty hok ha) (redraft_draft (k := j) (by rwa [vector_get_set, if_neg hne.symm]))
  · refine stores hu (slotOf_empty hok ha) (redraft_empty fun j => ?_)
    rw [vector_get_set]
    split
    · rfl
    · next hne => exact hj j (Ne.symm hne)

/-- Settles O20: the examination in the order of R79, then the route made EMPTY. -/
theorem clearRoute : Obligations.ClearRoute := by
  refine fun s p n h => ⟨fun hp => ?_, fun hp hc => ?_, fun hs hn => ?_, fun r hs hn hu => ?_, fun r hs hn hu => ?_⟩
  · exact idle_refuses h rfl rfl (performClearRoute_refusal (routeRefusal_role s hp))
  · exact idle_refuses h rfl rfl (performClearRoute_refusal (routeRefusal_mode s hp hc))
  · exact idle_refuses h rfl rfl (performClearRoute_argument hs hn)
  · subst hn
    exact idle_refuses h rfl rfl ((performClearRoute_past hs).trans (if_pos ((routeHeld_iff ..).2 hu)))
  · subst hn
    exact idle_answers h rfl rfl ((performClearRoute_past hs).trans (if_neg (mt (routeHeld_iff ..).1 hu)))

/-- Settles O21: the examination in the order of R80, then a DRAFT route by its seal checks. -/
theorem sealRoute : Obligations.SealRoute := by
  refine fun s p n count wide h => ⟨fun hp => ?_, fun hp hc => ?_, fun hs hbad => ?_, fun r hs hn h1 h16 => ?_⟩
  · exact idle_refuses h rfl rfl (performSealRoute_refusal (routeRefusal_role s hp))
  · exact idle_refuses h rfl rfl (performSealRoute_refusal (routeRefusal_mode s hp hc))
  · exact idle_refuses h rfl rfl (performSealRoute_argument hs hbad)
  subst hn
  have hpast := performSealRoute_past (r := r) (wide := wide) hs h1 h16
  have hfree (hu : ¬ s.track.routeInUse r) := hpast.trans (if_neg (mt (routeHeld_iff ..).1 hu))
  refine ⟨fun hu => ?_, fun hu hd => ?_, fun k x hu hd hx => ?_, fun hu hd hx => ?_⟩
  · exact idle_refuses h rfl rfl (hpast.trans (if_pos ((routeHeld_iff ..).2 hu)))
  · exact idle_refuses h rfl rfl ((hfree hu).trans (if_neg hd))
  · exact idle_answers h rfl rfl ((hfree hu).trans ((if_pos hd).trans (sealDraft_invalid hx)))
  · exact idle_answers h rfl rfl ((hfree hu).trans ((if_pos hd).trans (sealDraft_seals hx)))

end Sys2Proof.Proofs
end

section
/-! SUPPORT. The eight checks of a seal (R80 to R82, Table 5-3), each by the lowest step at which it fails. -/

namespace Sys2Proof.Machine

/-! ### The first check that fails (R80) -/

/-- The seal checks in the order of Table 5-3. -/
theorem sealChecks_eq (l : Layout) (r : Route) (n : Nat) (wide : Bool) : sealChecks l r n wide =
    firstFailed 1 ([sealCheck1 r n, sealCheck2 r n, sealCheck3 r, sealCheck4 r, sealCheck5 l r n wide, sealCheck6 l r wide,
      sealCheck7 l r, sealCheck8 l r].map fun c => c.map CheckSubject.step) := by
  simp [sealChecks, sealFailed, firstFailed, failed, Function.comp_def]

theorem firstFailed_steps_none (n : Nat) (cs : List (Option StepId)) :
    firstFailed n (cs.map fun c => c.map CheckSubject.step) = none ↔ ∀ c ∈ cs, c = none := by
  simp only [firstFailed_none, List.forall_mem_map, Option.map_eq_none_iff]

/-- The failure with the number `n + k` is that of check `k`, at the step it names. -/
theorem firstFailed_steps_some (n k : Nat) (x : CheckSubject) (cs : List (Option StepId)) :
    firstFailed n (cs.map fun c => c.map CheckSubject.step) = some (n + k, x) ↔
      ∃ j, x = .step j ∧ cs[k]? = some (some j) ∧ ∀ i, i < k → cs[i]? = some none := by
  have hsome : cs[k]?.map (fun c => c.map CheckSubject.step) = some (some x) ↔
      ∃ j, x = .step j ∧ cs[k]? = some (some j) := by
    simp only [Option.map_eq_some_iff]
    constructor
    · rintro ⟨_, hc, j, rfl, hj⟩
      exact ⟨j, hj.symm, hc⟩
    · rintro ⟨j, hj, hc⟩
      exact ⟨_, hc, j, rfl, hj.symm⟩
  have hnone (i : Nat) : cs[i]?.map (fun c => c.map CheckSubject.step) = some none ↔ cs[i]? = some none := by
    simp only [Option.map_eq_some_iff, Option.map_eq_none_iff, exists_eq_right]
  simp only [firstFailed_some, List.getElem?_map, hsome, hnone, ← exists_and_right, and_assoc]

/-! ### What the checks read of a route -/

/-- The step carries this opener. -/
def Route.opens (r : Route) (k : StepId) (o : Opener) : Prop := ∃ x, r.slots[k] = some x ∧ x.opener = some o

/-- The step is taken at this zone. -/
def Route.stands (r : Route) (k : StepId) (z : ZoneId) : Prop := ∃ x, r.slots[k] = some x ∧ x.zone = z

/-- No leg leads from one step to the other (R82). -/
def Route.noLeg (l : Layout) (r : Route) (a b : StepId) : Prop := ∀ y z, r.stands a y → r.stands b z →
  y = z ∨ ∀ g ∈ l.legs, g.start = y → g.zones.getLast? ≠ some z

theorem opener_some {r : Route} {k : StepId} {o : Opener} : r.opener k = some o ↔ r.opens k o := Option.bind_eq_some_iff

theorem zoneOf_some {r : Route} {k : StepId} {z : ZoneId} : r.zoneOf k = some z ↔ r.stands k z := Option.map_eq_some_iff

theorem badPassage_iff (l : Layout) (r : Route) (i j : StepId) : badPassage l r i j = true ↔ r.noLeg l i j := by
  unfold badPassage Route.noLeg
  simp only [← zoneOf_some]
  cases r.zoneOf i with
  | none => simp
  | some a =>
    cases r.zoneOf j with
    | none => simp
    | some b => simp [legBetween_none]

theorem loopsBack_iff (wide : Bool) (o : Opener) : loopsBack wide o = true ↔
    o.kind = .forever ∨ (∃ c, o.kind = .counted c ∧ 2 ≤ c) ∨ (o.kind = .counted 0 ∧ wide = true) := by
  unfold loopsBack
  cases o.kind <;> simp

/-! ### The lowest step at which a check fails -/

/-- The lowest step with a fault, and none where no step has it. -/
def lowestStep (c : Option StepId) (bad : StepId → Prop) : Prop :=
  (c = none ↔ ∀ k, ¬ bad k) ∧ ∀ k, c = some k ↔ bad k ∧ ∀ j, j < k → ¬ bad j

/-- A search from step 0. -/
theorem lowestStep_find? {q : StepId → Bool} {bad : StepId → Prop} (h : ∀ k, q k = true ↔ bad k) :
    lowestStep (stepIds.find? q) bad := by
  refine ⟨?_, fun k => (finRange_find?_some q k).trans (by simp only [h])⟩
  simp only [stepIds, List.find?_eq_none, List.mem_finRange, forall_const, h]

/-- A search from step 0 among the steps below the step count. -/
theorem lowestStep_below {n : Nat} {q : StepId → Bool} {bad : StepId → Prop} (h : ∀ k, q k = true ↔ bad k) :
    lowestStep ((stepsBelow n).find? q) fun k => k.val < n ∧ bad k := by
  rw [stepsBelow, List.find?_filter]
  exact lowestStep_find? fun k => by rw [decide_eq_true_eq, decide_eq_true_eq, h]

section
variable (l : Layout) (r : Route) (n : Nat) (wide : Bool)

/-- Check 1 looks for an empty slot below the step count, and for a loaded one behind it where there is none (R81). -/
theorem sealCheck1_gap (h : ∃ k : StepId, k.val < n ∧ r.slots[k] = none) :
    lowestStep (sealCheck1 r n) fun k => k.val < n ∧ r.slots[k] = none := by
  have hlow := lowestStep_below (n := n) fun k => Option.isNone_iff_eq_none (o := r.slots[k])
  unfold sealCheck1
  split
  · next k hk => rwa [hk] at hlow
  · next hnone =>
    obtain ⟨k, hk⟩ := h
    exact absurd hk (hlow.1.1 hnone k)

theorem sealCheck1_noGap (h : ¬ ∃ k : StepId, k.val < n ∧ r.slots[k] = none) :
    lowestStep (sealCheck1 r n) fun k => n ≤ k.val ∧ r.slots[k] ≠ none := by
  have hlow := lowestStep_below (n := n) fun k => Option.isNone_iff_eq_none (o := r.slots[k])
  unfold sealCheck1
  split
  · next k hk =>
    obtain ⟨hgap, _⟩ := (hlow.2 k).1 hk
    exact absurd ⟨k, hgap⟩ h
  · exact lowestStep_find? fun k => by rw [Bool.and_eq_true, decide_eq_true_eq, Option.isSome_iff_ne_none]

theorem sealCheck2_lowest : lowestStep (sealCheck2 r n) fun k => ∃ o, r.opens k o ∧ n ≤ o.endStep.val := by
  refine lowestStep_find? fun k => ?_
  simp only [← opener_some]
  cases r.opener k <;> simp

theorem openersCross_iff (a b : StepId) : openersCross r a b = true ↔
    ∃ o q, r.opens b o ∧ r.opens a q ∧ a < b ∧ b ≤ q.endStep ∧ q.endStep ≤ o.endStep := by
  unfold openersCross
  simp only [← opener_some]
  cases r.opener a with
  | none => simp
  | some q => cases r.opener b <;> simp [and_assoc]

theorem sealCheck3_lowest : lowestStep (sealCheck3 r) fun k => ∃ (o : Opener) (j : StepId) (q : Opener),
    r.opens k o ∧ r.opens j q ∧ j < k ∧ k ≤ q.endStep ∧ q.endStep ≤ o.endStep := by
  refine lowestStep_find? fun k => ?_
  simp only [stepIds, List.any_eq_true, List.mem_finRange, true_and, openersCross_iff]
  exact exists_comm

theorem coverCount_eq (k : StepId) : coverCount r k = (stepIds.filter fun j =>
    ((r.slots[j]).bind (·.opener)).any fun o => decide (j ≤ k) && decide (k ≤ o.endStep)).length := by
  unfold coverCount Route.opener
  refine congrArg (fun q => (stepIds.filter q).length) (funext fun j => ?_)
  cases (r.slots[j]).bind (·.opener) <;> rfl

theorem sealCheck4_lowest : lowestStep (sealCheck4 r) fun k => 4 < (stepIds.filter fun j =>
    ((r.slots[j]).bind (·.opener)).any fun o => decide (j ≤ k) && decide (k ≤ o.endStep)).length :=
  lowestStep_find? fun k => by rw [decide_eq_true_eq, coverCount_eq]

theorem forwardSuccessor_some (i j : StepId) : forwardSuccessor r n wide i = some j ↔
    ∃ fs, forwardTo r n wide 17 (i.val + 1) = some (j, fs) := by
  unfold forwardSuccessor
  simp only [Option.map_eq_some_iff, Prod.exists, exists_and_right, exists_eq_right]
  rfl

theorem sealCheck5_lowest : lowestStep (sealCheck5 l r n wide) fun i =>
    i.val < n ∧ ∃ j fs, forwardTo r n wide 17 (i.val + 1) = some (j, fs) ∧ r.noLeg l i j := by
  refine lowestStep_below fun i => ?_
  simp only [exists_and_right, ← forwardSuccessor_some, ← badPassage_iff]
  cases forwardSuccessor r n wide i <;> simp

theorem sealCheck6_lowest : lowestStep (sealCheck6 l r wide) fun k => ∃ o, r.opens k o ∧
    (o.kind = .forever ∨ (∃ c, o.kind = .counted c ∧ 2 ≤ c) ∨ (o.kind = .counted 0 ∧ wide = true)) ∧
    r.noLeg l o.endStep k := by
  refine lowestStep_find? fun k => ?_
  simp only [← opener_some, ← loopsBack_iff, ← badPassage_iff]
  cases r.opener k <;> simp

theorem sealCheck7_lowest : lowestStep (sealCheck7 l r) fun k => ∃ x, r.slots[k] = some x ∧ x.action = .dispatch ∧
    ∀ y, l.zones[x.zone] = some y → y.kind ≠ .station ∨ y.owner = none := by
  refine lowestStep_find? fun k => ?_
  unfold Route.actionOf Route.zoneOf
  cases r.slots[k] with
  | none => simp
  | some x =>
    simp only [Option.map_some, Option.bind_some, Option.some.injEq, Bool.and_eq_true, decide_eq_true_eq, exists_eq_left']
    refine and_congr_right fun _ => ?_
    cases l.zones[x.zone] <;> simp

theorem sealCheck8_lowest : lowestStep (sealCheck8 l r) fun k => ∃ x, r.slots[k] = some x ∧ x.action = .park ∧
    ∀ y p, l.zones[x.zone] = some y → y.owner = some p → l.roles[p] ≠ .transfer := by
  refine lowestStep_find? fun k => ?_
  unfold Route.actionOf Route.zoneOf
  cases r.slots[k] with
  | none => simp
  | some x =>
    simp only [Option.map_some, Option.bind_some, Option.some.injEq, Bool.and_eq_true, decide_eq_true_eq, exists_eq_left']
    refine and_congr_right fun _ => ?_
    cases l.zones[x.zone] with
    | none => simp
    | some y =>
      have hone : (∀ z p, some y = some z → z.owner = some p → l.roles[p] ≠ .transfer) ↔
          ∀ p, y.owner = some p → l.roles[p] ≠ .transfer :=
        ⟨fun h p => h y p rfl, fun h z p hz => Option.some.inj hz ▸ h p⟩
      rw [hone]
      cases hp : y.owner <;> simp [hp]

end

end Sys2Proof.Machine

namespace Sys2Proof.Proofs
open Sys2Proof.Machine

/-- Settles O22: the first failure by `firstFailed`, and each check by its own lemma. -/
theorem sealChecks : Obligations.SealChecks := by
  intro l r n wide
  refine ⟨?_, fun k x => ?_, sealCheck1_gap r n, sealCheck1_noGap r n, sealCheck2_lowest r n, sealCheck3_lowest r,
    sealCheck4_lowest r, sealCheck5_lowest l r n wide, sealCheck6_lowest l r wide, sealCheck7_lowest l r, sealCheck8_lowest l r⟩
  · rw [sealChecks_eq]
    exact firstFailed_steps_none ..
  · rw [sealChecks_eq, Nat.add_comm]
    exact firstFailed_steps_some ..

end Sys2Proof.Proofs
end

section
/-! SUPPORT. The route engine (R85 to R90, Table 5-4): frame operations, forward flow, and the selection of the next step. -/

namespace Sys2Proof.Machine

/-! ### The operations on the frame stack (R90) -/

section
variable (fs : List Frame) (f : Frame)

/-- The lap count rises, and stays at 65535. -/
theorem applyFrameOp_lapUp : applyFrameOp (fs ++ [f]) .lapUp =
    fs ++ [{ f with lap := if f.lap < 65535 then f.lap + 1 else 65535 }] := by
  have hlap : min 65535 (f.lap + 1) = if f.lap < 65535 then f.lap + 1 else 65535 := by split <;> omega
  show onInnermost Frame.lapUp (fs ++ [f]) = _
  rw [onInnermost_append, Frame.lapUp, hlap]

theorem applyFrameOp_countDown {k : Nat} (h : f.kind = .counted k) :
    applyFrameOp (fs ++ [f]) .countDown = fs ++ [{ f with kind := .counted (k - 1) }] := by
  show onInnermost Frame.countDown (fs ++ [f]) = _
  rw [onInnermost_append, Frame.countDown, h]

theorem applyFrameOp_pop : applyFrameOp (fs ++ [f]) .pop = fs := List.dropLast_concat

end

/-! ### The frame an opener pushes (R86) -/

/-- The frame of an opener at this step, when it is pushed. -/
def freshFrame (k : StepId) (o : Opener) (x : FrameKind) : Frame :=
  { start := k, endStep := o.endStep, kind := x, lap := 0, broken := false }

section
variable (k : StepId) (wide : Bool) {o : Opener}

theorem openerFrame_forever (h : o.kind = .forever) : openerFrame k wide o = some (freshFrame k o .forever) := by
  unfold openerFrame
  rw [h]
  rfl

theorem openerFrame_counted {c : Nat} (h : o.kind = .counted c) (hc : c ≠ 0) :
    openerFrame k wide o = some (freshFrame k o (.counted c)) := by
  unfold openerFrame
  rw [h]
  exact if_neg hc

/-- A count of 0 is 256 laps on a WIDE route, and skips the frame on another. -/
theorem openerFrame_zero (h : o.kind = .counted 0) :
    openerFrame k wide o = if wide then some (freshFrame k o (.counted 256)) else none := by
  unfold openerFrame
  rw [h]
  rfl

end

/-! ### Forward flow (R86, R89) -/

section
variable {r : Route} {n : Nat} {wide : Bool} {fuel : Nat}

theorem forwardTo_end {j : Nat} (h : n ≤ j) : forwardTo r n wide (fuel + 1) j = none := by
  unfold forwardTo
  split
  · exact if_neg (Nat.not_lt.2 h)
  · rfl

variable {j : StepId} (hj : j.val < n)
include hj

theorem forwardTo_plain (ho : (r.slots[j]).bind (·.opener) = none) : forwardTo r n wide (fuel + 1) j.val = some (j, []) := by
  unfold forwardTo
  rw [dif_pos j.isLt, if_pos hj]
  rw [Fin.getElem_fin] at ho
  rw [ho]

variable {o : Opener} (ho : (r.slots[j]).bind (·.opener) = some o)
include ho

/-- A step whose opener is not skipped is reached with its frame pushed. -/
theorem forwardTo_pushes {f : Frame} (hf : openerFrame j wide o = some f) :
    forwardTo r n wide (fuel + 1) j.val = some (j, [.push f]) := by
  rw [forwardTo, dif_pos j.isLt, if_pos hj]
  rw [Fin.getElem_fin] at ho
  simp only [ho, Fin.eta, hf]

/-- Where it is skipped, forward flow leads on behind the end step. -/
theorem forwardTo_skips (hf : openerFrame j wide o = none) :
    forwardTo r n wide (fuel + 1) j.val = forwardTo r n wide fuel (o.endStep.val + 1) := by
  rw [forwardTo, dif_pos j.isLt, if_pos hj]
  rw [Fin.getElem_fin] at ho
  simp only [ho, Fin.eta, hf]

end

/-! ### The selection of the next step (R87) -/

section
variable {r : Route} {n : Nat} {wide : Bool} {i : StepId} (hr : r.state = .sealed n wide)
include hr

theorem selectStep_noFrames : selectStep r i [] = arriveForward r n wide (i.val + 1) [] := by
  unfold selectStep
  rw [hr]
  rfl

variable {f : Frame} (gs : List Frame)

theorem selectStep_elsewhere (h : f.endStep ≠ i) : selectStep r i (gs ++ [f]) = arriveForward r n wide (i.val + 1) [] := by
  unfold selectStep
  simp only [hr, List.getLast?_concat]
  exact if_neg h

/-- At its end step the innermost frame goes back or is popped, as `endProcessing` says. -/
theorem selectStep_back (h : f.endStep = i) {k : StepId} {ops : List FrameOp} (he : endProcessing f = (some k, ops)) :
    selectStep r i (gs ++ [f]) = some { target := k, ops := ops } := by
  unfold selectStep
  simp only [hr, List.getLast?_concat, if_pos h, he]

theorem selectStep_popped (h : f.endStep = i) {ops : List FrameOp} (he : endProcessing f = (none, ops)) :
    selectStep r i (gs ++ [f]) = arriveForward r n wide (i.val + 1) ops := by
  unfold selectStep
  simp only [hr, List.getLast?_concat, if_pos h, he]

/-- A train placed at a step has the frame of the step's opener alone. -/
theorem placedFrames_opener {k : StepId} {o : Opener} (ho : (r.slots[k]).bind (·.opener) = some o) :
    placedFrames r k = (openerFrame k wide o).toList := by
  unfold placedFrames
  simp only [hr, ho]

theorem placedFrames_plain {k : StepId} (ho : (r.slots[k]).bind (·.opener) = none) : placedFrames r k = [] := by
  unfold placedFrames
  simp only [hr, ho]

end

section
variable {f : Frame}

theorem endProcessing_forever (h : f.kind = .forever) :
    endProcessing f = if f.broken then (none, [.lapUp, .pop]) else (some f.start, [.lapUp]) := by
  unfold endProcessing
  rw [h]

theorem endProcessing_counted {k : Nat} (h : f.kind = .counted k) : endProcessing f =
    if 1 < k ∧ f.broken = false then (some f.start, [.lapUp, .countDown]) else (none, [.lapUp, .pop]) := by
  unfold endProcessing
  rw [h]

end

end Sys2Proof.Machine

namespace Sys2Proof.Proofs
open Sys2Proof.Machine

/-- Settles O23: the innermost frame by `endProcessing`, a step reached by the frame its opener pushes, a stack by its last
frame. -/
theorem nextStepSelection : Obligations.NextStepSelection := by
  refine ⟨fun r n wide i fs hr => ⟨fun hfs => ?_, fun gs f hfs => ?_⟩,
    fun r n wide fuel => ⟨fun j => forwardTo_end, fun j => forwardTo_plain, fun j o hj ho => ?_⟩,
    fun r n wide j ops => rfl,
    fun fs f op ops => ⟨rfl, rfl, applyFrameOp_lapUp fs f, fun k => applyFrameOp_countDown fs f, applyFrameOp_pop fs f, rfl⟩,
    fun r n wide k hr => ⟨placedFrames_plain hr, fun o ho => ?_⟩⟩
  · subst hfs
    exact selectStep_noFrames hr
  · subst hfs
    refine ⟨selectStep_elsewhere hr gs, fun hi hk hb => selectStep_back hr gs hi ?_,
      fun hi hk hb => selectStep_popped hr gs hi ?_,
      fun k hi hk h1 hb => selectStep_back hr gs hi ?_,
      fun k hi hk hx => selectStep_popped hr gs hi ?_⟩
    · exact (endProcessing_forever hk).trans (if_neg (ne_true_of_eq_false hb))
    · exact (endProcessing_forever hk).trans (if_pos hb)
    · exact (endProcessing_counted hk).trans (if_pos ⟨h1, hb⟩)
    · refine (endProcessing_counted hk).trans (if_neg ?_)
      rintro ⟨h1, hb⟩
      exact hx.elim (Nat.not_le.2 h1) (ne_true_of_eq_false hb)
  · refine ⟨fun hk => forwardTo_pushes hj ho (openerFrame_forever j wide hk),
      fun c hk hc => forwardTo_pushes hj ho (openerFrame_counted j wide hk hc), fun hk hw => forwardTo_pushes hj ho ?_,
      fun hk hw => forwardTo_skips hj ho ?_⟩
    · exact (openerFrame_zero j wide hk).trans (if_pos hw)
    · exact (openerFrame_zero j wide hk).trans (if_neg (ne_true_of_eq_false hw))
  · rw [placedFrames_opener hr ho]
    refine ⟨fun hk => ?_, fun c hk hc => ?_, fun hk => ?_⟩
    · rw [openerFrame_forever k wide hk]
      rfl
    · rw [openerFrame_counted k wide hk hc]
      rfl
    · rw [openerFrame_zero k wide hk]
      cases wide <;> rfl

end Sys2Proof.Proofs
end

section
/-! SUPPORT. Every step keeps the claim list within 12 claims, and the line empty while the list has room (R93, R94): what operations
that set no mode make of the list, and the changes of mode. -/

namespace Sys2Proof.Machine

/-! ### Operations that set no mode -/

/-- The mode stays, and a list within its bound stays within it. -/
structure ListKept (a b : Work) : Prop where
  mode : b.mode = a.mode
  bound : a.listBounded → b.listBounded

/-- List and line as long as before. -/
theorem ListKept.of_length {a b : Work} (hm : b.mode = a.mode) (hc : b.claims.length = a.claims.length)
    (hl : b.line.length = a.line.length) : ListKept a b where
  mode := hm
  bound h := by
    obtain ⟨hlist, hline⟩ := h
    refine ⟨hc.trans_le hlist, fun hroom => ?_⟩
    rw [← List.length_eq_zero_iff, hl, hline (hc ▸ hroom), List.length_nil]

/-- Claims put in arrival order fill the list first (R94). -/
theorem setClaims_bounded (w : Work) (cs : List Claim) : (w.setClaims cs).listBounded := by
  refine ⟨List.length_take_le _ _, fun hroom => ?_⟩
  have hroom' : (cs.take Config.claimListSize).length < Config.claimListSize := hroom
  rw [List.length_take] at hroom'
  exact List.drop_eq_nil_of_le (by omega)

/-- A claim that arrives enters the list while it has room (R94). -/
theorem arriveClaim_bounded (b : ClaimBody) (wait : Option Nat) {w : Work} (h : w.listBounded) :
    (arriveClaim b wait w).listBounded := by
  obtain ⟨hlist, hline⟩ := h
  unfold arriveClaim
  dsimp only
  split
  · next hroom =>
    refine ⟨?_, fun _ => hline hroom⟩
    rw [List.length_append]
    exact hroom
  · next hfull => exact ⟨hlist, fun hroom => absurd hroom hfull⟩

theorem listKept_steady : Steady ListKept where
  refl _ := ⟨rfl, id⟩
  trans h k := ⟨k.mode.trans h.mode, fun x => k.bound (h.bound x)⟩
  mode h := h.mode
  posts _ _ := ⟨rfl, id⟩
  zones _ _ := ⟨rfl, id⟩
  trackers _ _ := ⟨rfl, id⟩
  trains _ _ := ⟨rfl, id⟩
  sections _ _ := ⟨rfl, id⟩
  setClaims w cs := ⟨rfl, fun _ => setClaims_bounded w cs⟩
  newClaim w b t := ⟨by unfold arriveClaim; dsimp only; split <;> rfl, arriveClaim_bounded b t⟩
  edit _ _ _ hl hm := .of_length rfl hl hm
  switch _ _ _ _ _ := ⟨rfl, id⟩
  unserve _ _ := ⟨rfl, id⟩
  start _ _ _ _ _ _ := ⟨rfl, id⟩

/-- An operation that sets no mode. -/
theorem listBounded_of_steady {a b : Work} (h : ∀ R, Steady R → R a b) (hb : a.listBounded) : b.listBounded :=
  (h _ listKept_steady).bound hb

/-- An event that may halt the ride (R153, R154). -/
theorem HaltPath.listBounded {a b : Work} (h : HaltPath a b) (hb : a.listBounded) : b.listBounded := by
  induction h with
  | steady h => exact listBounded_of_steady h hb
  | halt a m => exact hb
  | trans _ _ ih1 ih2 => exact ih2 (ih1 hb)

/-! ### Changes of mode -/

namespace Steady

variable {R : Work → Work → Prop} (h : Steady R) (e : Env) (w : Work)
include h

theorem resumeTrain (t : TrainId) : R w (resumeTrain e t w) := by
  unfold Machine.resumeTrain
  split
  · split
    · exact h.formAtRest _ _ _ _ _
    · exact h.startDwell _ _ _ _
    · exact h.refl w
    · exact h.refl w
    · exact h.refl w
  · exact h.refl w

theorem standbyClaim (c : Claim) : R w (standbyClaim c w) := by
  unfold Machine.standbyClaim
  split
  · exact h.trans (h.withdrawClaim c w) (h.postAbort _ _ _ _)
  · exact h.refl w

/-- SET_MODE OPERATING after the change of mode (R160, R161). -/
theorem enterOperating : R { w with mode := .operating } (enterOperating e w) :=
  h.trans (h.postMode _ _ _) (h.trans (h.foldl _ (fun v t => h.resumeTrain e v t) _ _) (h.closeEvent e _))

/-- SET_MODE STANDBY after the change of mode (R162). -/
theorem enterStandby : R { w with mode := .standby } (enterStandby e w) :=
  h.trans (h.foldl _ (fun v c => h.standbyClaim v c) _ _)
    (h.trans (h.applyRelease e _) (h.trans (h.postMode _ _ _) (h.closeEvent e _)))

/-- SET_MODE HALTED after the change of mode (R163). -/
theorem enterHalted : R { w with mode := .halted } (enterHalted e w) := by
  unfold Machine.enterHalted
  split
  · exact h.trans (h.rideHalt e _ w) (h.trans (h.postMode _ _ _) (h.closeEvent e _))
  · exact h.trans (h.applyRelease e _) (h.trans (h.postMode _ _ _) (h.closeEvent e _))

/-- The entry into ESTOPPED after the change of mode (R157). -/
theorem enterEstopped (a b : Bool) : R { w with mode := .estopped } (enterEstopped e a b w) := by
  unfold Machine.enterEstopped
  split
  · exact h.trans (h.rideHalt e _ w) (h.trans (h.abandonAll e _)
      (h.trans (h.sections _ _) (h.trans (h.applyRelease e _) (h.postMode _ _ _))))
  · exact h.postMode _ _ _

end Steady

/-- The stop is lifted (R158). -/
theorem clearEnds_listBounded (e : Env) {w : Work} (hb : w.listBounded) : (clearEnds e w).listBounded := by
  unfold clearEnds
  split
  · exact listBounded_of_steady (a := { w with mode := if e.layout.committed then .halted else .unconfigured, estopClear := none })
      (fun _ h => h.trans (h.postMode _ _ _) (h.closeEvent e _)) hb
  · exact hb

theorem estopChange_listBounded (a : Bool) (e : Env) {w : Work} (hb : w.listBounded) : (estopChange a e w).listBounded := by
  unfold estopChange
  split
  · split
    · exact hb
    · exact listBounded_of_steady (a := { w with mode := .estopped })
        (fun _ h => h.trans (h.enterEstopped e w _ _) (h.closeEvent e _)) hb
  · split
    · exact hb
    · exact hb

/-! ### Every step -/

theorem event_listBounded {s : State} {f : Env → Work → Work} (hf : Event s f) (hb : s.track.listBounded) :
    (f s.env s.work).listBounded := by
  have hw : s.work.listBounded := hb
  rcases event_haltPath hf with h | rfl | ⟨-, rfl | rfl | rfl⟩
  · exact h.listBounded hw
  · exact clearEnds_listBounded s.env hw
  · exact listBounded_of_steady (a := { s.work with mode := .operating }) (fun _ h => h.enterOperating s.env s.work) hw
  · exact listBounded_of_steady (a := { s.work with mode := .standby }) (fun _ h => h.enterStandby s.env s.work) hw
  · exact listBounded_of_steady (a := { s.work with mode := .halted }) (fun _ h => h.enterHalted s.env s.work) hw

/-- One millisecond changes the wait of claims alone. -/
theorem tick_listBounded {w : Track} (hb : w.listBounded) : w.tick.listBounded := by
  obtain ⟨hlist, hline⟩ := hb
  have hc : w.tick.claims = w.claims.map Claim.tick := rfl
  have hl : w.tick.line = w.line.map Claim.tick := rfl
  unfold Track.listBounded
  rw [hc, hl, List.length_map]
  exact ⟨hlist, fun hroom => by rw [hline hroom, List.map_nil]⟩

theorem listBounded_rules : StepRules fun s => s.track.listBounded where
  frame _ _ ht hs := ht ▸ hs
  cold _ _ := reset_listBounded
  warm _ _ := ⟨Nat.zero_le _, fun _ => rfl⟩
  load _ _ _ _ _ hs := hs
  commit _ _ _ _ hs := hs
  uncommit _ _ _ _ _ hs := hs
  input _ _ _ _ hs := hs
  estop s k a _ hs := estopChange_listBounded a (s.setInput (.estop k) a).env (w := (s.setInput (.estop k) a).work) hs
  tick s _ hs := tick_track s ▸ tick_listBounded hs
  event _ _ hf hs := event_listBounded hf hs

end Sys2Proof.Machine
end

section
/-! SUPPORT. Every step keeps the queues of the ports within their bounds, and a command waiting only while its reply queue is full
(R167, R171, R172): what commands and events make of the queues, and what executing the command at a queue's head leaves. -/

namespace Sys2Proof.Machine

/-! ### What commands and events make of the queues -/

/-- A port's record after a command or an event: as many commands and replies as before, or none after a start; and a notice
queue within its bound stays within it. -/
structure Port.Settles (a b : Port) : Prop where
  queues : (b.commands.length = a.commands.length ∧ b.replies.length = a.replies.length) ∨ (b.commands = [] ∧ b.replies = [])
  notices : a.notices.length ≤ Config.noticeQueueSize → b.notices.length ≤ Config.noticeQueueSize

theorem Port.Settles.of_eq {a b : Port} (hc : b.commands = a.commands) (hr : b.replies = a.replies) (hn : b.notices = a.notices) :
    a.Settles b := ⟨.inl ⟨by rw [hc], by rw [hr]⟩, fun h => hn ▸ h⟩

theorem Port.Settles.trans {a b c : Port} (h : a.Settles b) (k : b.Settles c) : a.Settles c where
  queues := by
    rcases k.queues with ⟨hc, hr⟩ | hnone
    · rcases h.queues with ⟨hc', hr'⟩ | ⟨hc', hr'⟩
      · exact .inl ⟨hc.trans hc', hr.trans hr'⟩
      · rw [hc', List.length_nil] at hc
        rw [hr', List.length_nil] at hr
        exact .inr ⟨List.length_eq_zero_iff.1 hc, List.length_eq_zero_iff.1 hr⟩
    · exact .inr hnone
  notices x := k.notices (h.notices x)

/-- Notices delivered join the notice queue alone, within its bound (R172). -/
theorem deliverTo_settles (l : Layout) (t : BitVec 32) (p : PortId) (os : List Post) (r : Port) : r.Settles (deliverTo l t p os r) where
  queues := by
    obtain ⟨n, m, o, h⟩ := deliverTo_eq l t p os r
    rw [h]
    exact .inl ⟨rfl, rfl⟩
  notices := deliverTo_bound l t p os r

/-- A start empties the queues (R177). -/
theorem restarted_settles (r : Port) : r.Settles r.warm := ⟨.inr ⟨rfl, rfl⟩, fun _ => Nat.zero_le _⟩

/-- A lapse marks the commands that wait (R176). -/
theorem lapse_settles (r : Port) : r.Settles r.lapse := ⟨.inl ⟨List.length_map _, rfl⟩, id⟩

/-- Every port's queues settle. -/
def State.settles (s t : State) : Prop := ∀ q : PortId, (s.ports[q]).Settles t.ports[q]

section
variable (s : State)

theorem settles_of_ports {t : State} (h : t.ports = s.ports) : s.settles t := fun _ => .of_eq (by rw [h]) (by rw [h]) (by rw [h])

theorem settles_trans {s t u : State} (h : s.settles t) (k : t.settles u) : s.settles u := fun q => (h q).trans (k q)

@[simp] theorem settles_refl : s.settles s := settles_of_ports s rfl

@[simp] theorem settles_put (w : Work) : s.settles (s.put w) := fun q => by
  unfold State.put
  rw [deliver_port]
  exact deliverTo_settles _ _ _ _ _

@[simp] theorem settles_run (f : Env → Work → Work) : s.settles (s.run f) := settles_put s _

/-- An event taken in a state that differs in other things than the ports. -/
theorem settles_run_of_ports {t : State} (h : t.ports = s.ports) (f : Env → Work → Work) : s.settles (t.run f) :=
  settles_trans (t := t) (settles_of_ports s h) (settles_run t f)

theorem settles_modifyPort (p : PortId) {f : Port → Port} (h : ∀ r : Port, r.Settles (f r)) : s.settles (s.modifyPort p f) := fun q => by
  rw [modifyPort_port]
  split
  · exact h _
  · exact .of_eq rfl rfl rfl

@[simp] theorem refuse_state (r : Reason) : (refuse r s).1 = s := rfl

@[simp] theorem doneWith_state : (doneWith s).1 = s := rfl

theorem takeRoles_settles (roles : Vector Role 4) : s.settles (s.takeRoles roles) := fun q => by
  unfold State.takeRoles
  rw [vector_get_ofFn]
  exact .of_eq rfl rfl rfl

theorem warmStart_settles : s.settles (warmStart s) := by
  have hwarm : s.settles { s with ports := s.ports.map Port.warm, time := 0, sampleDue := false, inputs := s.inputs.told } := fun q => by
    rw [vector_get_map]
    exact restarted_settles _
  exact settles_trans hwarm (settles_run _ _)

theorem commitState_settles : s.settles (commitState s) := by
  have hrun : s.settles (({ s with layout := committedLayout s.layout }).run commitTrack) :=
    settles_run_of_ports s (t := { s with layout := committedLayout s.layout }) rfl _
  exact settles_trans hrun (takeRoles_settles _ _)

theorem uncommitState_settles : s.settles (uncommitState s) := by
  have hroles : s.settles (({ s with layout := uncommittedLayout s.layout, routes := Vector.replicate 8 Route.cleared }).takeRoles
      Role.initial) := settles_trans (settles_of_ports s rfl) (takeRoles_settles _ _)
  exact settles_trans hroles (settles_run _ _)

theorem lapse_port_settles (p : PortId) (c : LapseCause) : s.settles (lapse p c s) := by
  unfold lapse
  split
  · exact settles_refl s
  · exact settles_trans (settles_modifyPort s p lapse_settles) (settles_run _ _)

/-! ### Commands on the stores and the ports -/

theorem loadLayout_settles (p : PortId) (l : Option Layout) : s.settles (loadLayout p l s).1 := by
  unfold loadLayout
  split
  · exact settles_refl s
  · split
    · exact settles_refl s
    · exact settles_of_ports s rfl

theorem performCommit_settles (p : PortId) : s.settles (performCommit p s).1 := by
  unfold performCommit
  split
  · exact settles_refl s
  · split
    · exact settles_refl s
    · split
      · exact settles_refl s
      · exact commitState_settles s

theorem performUncommit_settles (p : PortId) : s.settles (performUncommit p s).1 := by
  unfold performUncommit
  split
  · exact settles_refl s
  · exact uncommitState_settles s

theorem performSetMask_settles (p : PortId) (m : Nat) : s.settles (performSetMask p m s).1 := by
  unfold performSetMask
  split
  · exact settles_refl s
  · exact settles_modifyPort s p fun _ => .of_eq rfl rfl rfl

theorem performSetLease_settles (p : PortId) (n c u : Nat) : s.settles (performSetLease p n c u s).1 := by
  have hset : ∀ (x : LeaseUnit) (r : Port), r.Settles (r.setLease c x) := fun x r => by
    unfold Port.setLease
    dsimp only
    split <;> exact .of_eq rfl rfl rfl
  unfold performSetLease
  split
  · exact settles_refl s
  · split
    · split
      · exact settles_modifyPort s _ (hset _)
      · exact settles_refl s
    · exact settles_refl s

theorem performForceLapse_settles (p : PortId) (n : Nat) : s.settles (performForceLapse p n s).1 := by
  unfold performForceLapse
  split
  · exact settles_refl s
  · split
    · exact settles_refl s
    · exact lapse_port_settles s _ _

theorem performRestart_settles (p : PortId) : s.settles (performRestart p s).1 := by
  unfold performRestart
  split
  · exact settles_refl s
  · exact warmStart_settles s

theorem setRoute_settles (r : RouteId) (x : Route) : s.settles (s.setRoute r x) := settles_of_ports s rfl

theorem performLoadStep_settles (p : PortId) (n m : Nat) (f : StepFields) : s.settles (performLoadStep p n m f s).1 := by
  unfold performLoadStep
  repeat' split
  all_goals simp [setRoute_settles]

theorem performClearRoute_settles (p : PortId) (n : Nat) : s.settles (performClearRoute p n s).1 := by
  unfold performClearRoute
  repeat' split
  all_goals simp [setRoute_settles]

theorem performSealRoute_settles (p : PortId) (n c : Nat) (b : Bool) : s.settles (performSealRoute p n c b s).1 := by
  unfold performSealRoute sealDraft
  repeat' split
  all_goals simp [setRoute_settles]

/-! ### Orders on the track: each is refused, or runs an event -/

theorem performSetMode_settles (p : PortId) (n : Nat) : s.settles (performSetMode p n s).1 := by
  unfold performSetMode tryMode
  repeat' split
  all_goals simp

theorem performPlaceTrain_settles (p : PortId) (n z g : Nat) (o : RouteOption) : s.settles (performPlaceTrain p n z g o s).1 := by
  unfold performPlaceTrain tryPlace
  repeat' split
  all_goals simp

theorem performAssignRoute_settles (p : PortId) (n r m : Nat) : s.settles (performAssignRoute p n r m s).1 := by
  unfold performAssignRoute tryAssign
  repeat' split
  all_goals simp

theorem performRetireTrain_settles (p : PortId) (n d : Nat) : s.settles (performRetireTrain p n d s).1 := by
  unfold performRetireTrain tryRetire
  repeat' split
  all_goals simp

theorem performAssertZone_settles (p : PortId) (n d : Nat) : s.settles (performAssertZone p n d s).1 := by
  unfold performAssertZone
  repeat' split
  all_goals simp

theorem performProceed_settles (p : PortId) (n : Nat) : s.settles (performProceed p n s).1 := by
  unfold performProceed
  repeat' split
  all_goals simp

theorem performBreakLoop_settles (p : PortId) (n : Nat) : s.settles (performBreakLoop p n s).1 := by
  unfold performBreakLoop
  repeat' split
  all_goals simp

theorem performResetSwitch_settles (p : PortId) (n : Nat) : s.settles (performResetSwitch p n s).1 := by
  unfold performResetSwitch
  repeat' split
  all_goals simp

theorem orderLeg_settles (t : TrainId) (o : Origin) (x : Option Nat) : s.settles (orderLeg t o x s).1 := by
  unfold orderLeg
  dsimp only
  repeat' split
  all_goals simp

theorem performDispatch_settles (p : PortId) (mark : Bool) (n : Nat) : s.settles (performDispatch p mark n s).1 := by
  unfold performDispatch tryDispatch
  repeat' split
  all_goals simp [orderLeg_settles]

theorem performCancelDispatch_settles (p : PortId) (n : Nat) : s.settles (performCancelDispatch p n s).1 := by
  unfold performCancelDispatch tryCancel
  repeat' split
  all_goals simp

theorem performMove_settles (p : PortId) (mark : Bool) (n : Nat) : s.settles (performMove p mark n s).1 := by
  unfold performMove tryMove
  repeat' split
  all_goals simp [orderLeg_settles]

theorem performRequestSection_settles (p : PortId) (mark : Bool) (zs : List Nat) (x : Option Nat) :
    s.settles (performRequestSection p mark zs x s).1 := by
  unfold performRequestSection tryRequest
  repeat' split
  all_goals simp

theorem performCancelSection_settles (p : PortId) : s.settles (performCancelSection p s).1 := by
  unfold performCancelSection
  repeat' split
  all_goals simp

theorem performReturnSection_settles (p : PortId) (ds : List (Nat × Declared)) : s.settles (performReturnSection p ds s).1 := by
  unfold performReturnSection
  repeat' split
  all_goals simp

theorem performSetHold_settles (p : PortId) (n r : Nat) : s.settles (performSetHold p n r s).1 := by
  unfold performSetHold trySetHold
  repeat' split
  all_goals simp

theorem performMoveSwitch_settles (p : PortId) (n q : Nat) : s.settles (performMoveSwitch p n q s).1 := by
  unfold performMoveSwitch tryMoveSwitch
  repeat' split
  all_goals simp

/-- A command leaves every port's queues settled, by its rule. -/
theorem perform_settles (p : PortId) (mark : Bool) (c : Command) : s.settles (perform p mark c s).1 := by
  cases c with
  | ping => exact settles_refl s
  | readStatus => exact settles_modifyPort s p fun _ => .of_eq rfl rfl rfl
  | readZone z => exact (performReadZone_state z s).symm ▸ settles_refl s
  | readTrain t k => exact (performReadTrain_state t k s).symm ▸ settles_refl s
  | readSwitch n => exact (performReadSwitch_state n s).symm ▸ settles_refl s
  | readClaim i k => exact (performReadClaim_state i k s).symm ▸ settles_refl s
  | readStep r k => exact (performReadStep_state r k s).symm ▸ settles_refl s
  | setMask m => exact performSetMask_settles s p m
  | loadZone z f => exact loadLayout_settles s p _
  | loadSwitch n f => exact loadLayout_settles s p _
  | loadPort q r => exact loadLayout_settles s p _
  | loadGlobals b c l => exact loadLayout_settles s p _
  | commit => exact performCommit_settles s p
  | uncommit => exact performUncommit_settles s p
  | loadStep r k f => exact performLoadStep_settles s p r k f
  | sealRoute r n w => exact performSealRoute_settles s p r n w
  | clearRoute r => exact performClearRoute_settles s p r
  | setMode m => exact performSetMode_settles s p m
  | restart => exact performRestart_settles s p
  | setLease q n u => exact performSetLease_settles s p q n u
  | forceLapse q => exact performForceLapse_settles s p q
  | placeTrain t z g o => exact performPlaceTrain_settles s p t z g o
  | assignRoute t r k => exact performAssignRoute_settles s p t r k
  | retireTrain t d => exact performRetireTrain_settles s p t d
  | assertZone z d => exact performAssertZone_settles s p z d
  | proceed t => exact performProceed_settles s p t
  | breakLoop t => exact performBreakLoop_settles s p t
  | resetSwitch n => exact performResetSwitch_settles s p n
  | dispatch z => exact performDispatch_settles s p mark z
  | cancelDispatch z => exact performCancelDispatch_settles s p z
  | move z => exact performMove_settles s p mark z
  | requestSection zs x => exact performRequestSection_settles s p mark zs x
  | cancelSection => exact performCancelSection_settles s p
  | returnSection ds => exact performReturnSection_settles s p ds
  | setHold z r => exact performSetHold_settles s p z r
  | moveSwitch n q => exact performMoveSwitch_settles s p n q

/-- A command of the queue that R171 and R180 refuse changes nothing. -/
theorem answer_settles (p : PortId) (c : Queued) : s.settles (answer p c s).1 := by
  unfold answer
  split
  · exact settles_refl s
  · exact perform_settles s p _ _

/-! ### Events -/

theorem changeInput_settles (i : InputId) (a : Bool) (f : Env → Work → Work) : s.settles (changeInput i a f s) := by
  unfold changeInput
  split
  · exact settles_of_ports s rfl
  · exact settles_run_of_ports s (t := s.setInput i a) rfl f

theorem moveArrives_settles (n : SwitchId) : s.settles (moveArrives n s) := by
  unfold moveArrives
  split
  · next q _ _ _ => exact settles_run_of_ports s (t := s.showPosition n q) rfl _
  · exact settles_refl s

theorem leaseEnds_settles (p : PortId) : s.settles (leaseEnds p s) := by
  unfold leaseEnds
  split
  · exact lapse_port_settles s p _
  · exact settles_refl s

theorem tick_settles : s.settles s.tick := fun q => by
  have hq : s.tick.ports[q] = (s.ports[q]).tick := vector_get_map _ _ _
  rw [hq]
  exact .of_eq rfl rfl rfl

end

/-! ### Orderly ports -/

/-- A port's queues are within their bounds, and a command waits only while the reply queue is full. -/
def Port.orderly (r : Port) : Prop := r.bounded ∧ (r.commands = [] ∨ r.replies.length = Config.replyQueueSize)

/-- A port whose command at the head may be due for execution: one command waits at most, or one place at most is free in the reply
queue. -/
def Port.serviceable (r : Port) : Prop := r.bounded ∧ (r.commands.length ≤ 1 ∨ Config.replyQueueSize ≤ r.replies.length + 1)

/-- Every port is orderly. -/
def State.orderly (s : State) : Prop := ∀ q : PortId, (s.ports[q]).orderly

theorem orderly_iff (s : State) : s.orderly ↔ s.queuesBounded ∧ s.waitsForRoom := forall_and

theorem Port.orderly.serviceable {r : Port} (h : r.orderly) : r.serviceable := by
  obtain ⟨hb, hc | hr⟩ := h
  · exact ⟨hb, .inl (by rw [hc]; exact Nat.zero_le _)⟩
  · exact ⟨hb, .inr (by omega)⟩

/-- A record with the same queues. -/
theorem Port.orderly.congr {a b : Port} (h : a.orderly) (hc : b.commands = a.commands) (hr : b.replies = a.replies)
    (hn : b.notices = a.notices) : b.orderly := by
  unfold Port.orderly Port.bounded at *
  rw [hc, hr, hn]
  exact h

theorem Port.Settles.orderly {a b : Port} (h : a.Settles b) (ha : a.orderly) : b.orderly := by
  obtain ⟨⟨hcb, hrb, hnb⟩, hw⟩ := ha
  rcases h.queues with ⟨hc, hr⟩ | ⟨hc, hr⟩
  · refine ⟨⟨by omega, by omega, h.notices hnb⟩, hw.imp (fun he => ?_) hr.trans⟩
    rw [he, List.length_nil] at hc
    exact List.length_eq_zero_iff.1 hc
  · refine ⟨⟨?_, ?_, h.notices hnb⟩, .inl hc⟩
    · rw [hc]; exact Nat.zero_le _
    · rw [hr]; exact Nat.zero_le _

theorem settles_orderly {s t : State} (h : s.settles t) (hs : s.orderly) : t.orderly := fun q => (h q).orderly (hs q)

theorem Port.Settles.serviceable {a b : Port} (h : a.Settles b) (ha : a.serviceable) : b.serviceable := by
  obtain ⟨⟨hcb, hrb, hnb⟩, hw⟩ := ha
  rcases h.queues with ⟨hc, hr⟩ | ⟨hc, hr⟩
  · exact ⟨⟨by omega, by omega, h.notices hnb⟩, by omega⟩
  · refine ⟨⟨?_, ?_, h.notices hnb⟩, .inl ?_⟩
    · rw [hc]; exact Nat.zero_le _
    · rw [hr]; exact Nat.zero_le _
    · rw [hc]; exact Nat.zero_le _

/-- After its first command has been executed and the reply queued (R171), a serviceable port is orderly. -/
theorem executed_orderly {a b : Port} {c : Queued} {rest : List Queued} (ha : a.serviceable) (hc : a.commands = c :: rest)
    (hroom : a.replies.length < Config.replyQueueSize) (h : ({ a with commands := rest } : Port).Settles b) (x : Reply) :
    (b.queueReply x).orderly := by
  obtain ⟨⟨hcb, hrb, hnb⟩, hw⟩ := ha
  rw [hc, List.length_cons] at hcb hw
  have hreplies : (b.queueReply x).replies.length = b.replies.length + 1 := List.length_append
  have hcommands : (b.queueReply x).commands = b.commands := rfl
  have hnotices : (b.queueReply x).notices.length ≤ Config.noticeQueueSize := h.notices hnb
  unfold Port.orderly Port.bounded
  rw [hreplies, hcommands]
  rcases h.queues with ⟨hcl, hrl⟩ | ⟨hcn, hrn⟩
  · have hcl' : b.commands.length = rest.length := hcl
    have hrl' : b.replies.length = a.replies.length := hrl
    refine ⟨⟨by omega, by omega, hnotices⟩, ?_⟩
    rw [← List.length_eq_zero_iff]
    omega
  · rw [hcn, hrn]
    exact ⟨⟨Nat.zero_le _, by decide, hnotices⟩, .inl rfl⟩

/-- Where every other port is orderly and port `p` serviceable, `p` taking its head command leaves every port orderly (R171). -/
theorem runHead_orderly {s : State} {p : PortId} (hp : (s.ports[p]).serviceable) (ho : ∀ q, q ≠ p → (s.ports[q]).orderly) :
    (runHead p s).orderly := by
  have hstays : (s.ports[p]).commands = [] ∨ (s.ports[p]).replies.length = Config.replyQueueSize → s.orderly := fun h q => by
    by_cases e : q = p
    · exact e ▸ ⟨hp.1, h⟩
    · exact ho q e
  unfold runHead
  split
  · next hc => exact hstays (.inl hc)
  · next c rest hc =>
    split
    · next hroom =>
      intro q
      have hset := answer_settles (s.modifyPort p fun r => { r with commands := rest }) p c q
      unfold executeHead
      dsimp only
      rw [modifyPort_port] at hset ⊢
      by_cases e : p = q
      · subst e
        rw [if_pos rfl] at hset ⊢
        exact executed_orderly hp hc hroom hset _
      · rw [if_neg e] at hset ⊢
        exact hset.orderly (ho q (Ne.symm e))
    · next hfull =>
      obtain ⟨⟨_, hrb, _⟩, _⟩ := hp
      exact hstays (.inr (by omega))

/-! ### Frames and command rows -/

section
variable {s : State} (hs : s.orderly) (p : PortId)
include hs

/-- A change of one port's record that leaves it orderly. -/
theorem modifyPort_orderly {f : Port → Port} (h : ∀ r : Port, r.orderly → (f r).orderly) : (s.modifyPort p f).orderly := fun q => by
  rw [modifyPort_port]
  split
  · exact h _ (hs q)
  · exact hs q

/-- A change of one port's record that leaves it serviceable, and then its head command. -/
theorem modify_runHead_orderly {f : Port → Port} (h : (f s.ports[p]).serviceable) : (runHead p (s.modifyPort p f)).orderly :=
  runHead_orderly (by rw [modifyPort_self]; exact h) fun q hq => by
    rw [modifyPort_other s f (Ne.symm hq)]
    exact hs q

omit hs p in
/-- A command that joins an orderly queue with room (R168). -/
theorem queueCommand_serviceable {r : Port} (h : r.orderly) (hroom : r.commands.length < Config.commandQueueSize) (c : Queued) :
    (r.queueCommand c).serviceable := by
  obtain ⟨⟨_, hrb, hnb⟩, hw⟩ := h
  have hc : (r.queueCommand c).commands.length = r.commands.length + 1 := List.length_append
  have hr : (r.queueCommand c).replies.length = r.replies.length := rfl
  have hwait : r.commands.length = 0 ∨ r.replies.length = Config.replyQueueSize := hw.imp_left List.length_eq_zero_iff.2
  exact ⟨⟨by omega, hrb, hnb⟩, by omega⟩

omit hs p in
/-- A record given out leaves its queue (R169). -/
theorem giveRecord_serviceable {r : Port} (h : r.orderly) : r.giveRecord.serviceable := by
  obtain ⟨⟨hcb, hrb, hnb⟩, hw⟩ := h
  have hwait : r.commands.length = 0 ∨ r.replies.length = Config.replyQueueSize := hw.imp_left List.length_eq_zero_iff.2
  unfold Port.giveRecord
  split
  · have htail : r.replies.tail.length = r.replies.length - 1 := List.length_tail
    refine ⟨⟨hcb, ?_, hnb⟩, ?_⟩ <;> dsimp only <;> omega
  · have htail : r.notices.tail.length = r.notices.length - 1 := List.length_tail
    refine ⟨⟨hcb, hrb, ?_⟩, ?_⟩ <;> dsimp only <;> omega
  · exact ⟨⟨hcb, hrb, hnb⟩, by dsimp only; omega⟩

theorem submit_orderly (c : Command) : (submit p c s).orderly := by
  unfold submit
  split
  · next hroom => exact modify_runHead_orderly hs p (queueCommand_serviceable (hs p) hroom _)
  · exact hs

/-- A frame taken by a port with room (R168). -/
theorem takeFrame_orderly (f : TakenFrame) (hroom : (s.ports[p]).commands.length < Config.commandQueueSize) :
    (takeFrame p f s).orderly := by
  have hjoin : ((s.ports[p]).takeFrame (frameCommand f)).serviceable := queueCommand_serviceable (hs p) hroom (frameCommand f)
  have hnotice : (s.modifyPort p (Port.takeFrame (frameCommand f))).settles
      (resumeNotice p (s.ports[p]).lapsed (s.modifyPort p (Port.takeFrame (frameCommand f)))) := by
    unfold resumeNotice
    split
    · exact settles_run _ _
    · exact settles_refl _
  unfold takeFrame
  refine runHead_orderly ((hnotice p).serviceable (by rw [modifyPort_self]; exact hjoin)) fun q hq => (hnotice q).orderly ?_
  rw [modifyPort_other s _ (Ne.symm hq)]
  exact hs q

theorem rejectFrame_orderly : (rejectFrame p s).orderly := modifyPort_orderly hs p fun _ h => h.congr rfl rfl rfl

theorem openFrame_orderly (out : List Byte) : (s.modifyPort p (Port.openFrame out)).orderly :=
  modifyPort_orderly hs p fun _ h => h.congr rfl rfl rfl

theorem serveCommand_orderly (bs : List Byte) : (serveCommand p bs s).orderly := by
  have hopen := openFrame_orderly hs p (shiftedOut bs.length (s.statusOf p) [])
  unfold serveCommand releaseCommand
  split
  · exact hopen
  · next hfull =>
    split
    · refine takeFrame_orderly hopen p _ ?_
      rw [modifyPort_self]
      exact Nat.lt_of_not_le fun hle => hfull (decide_eq_true hle)
    · exact rejectFrame_orderly hopen p

theorem serveRead_orderly (n : Nat) : (serveRead p n s).orderly := by
  have hopen : (openRecord p n (chosenRecord (s.ports[p])) s).orderly := openFrame_orderly hs p _
  unfold serveRead
  dsimp only
  split
  · exact modify_runHead_orderly hopen p (giveRecord_serviceable (hopen p))
  · exact rejectFrame_orderly hopen p

theorem serveRepeat_orderly (n : Nat) : (serveRepeat p n s).orderly := by
  have hopen : (openRecord p n (repeatedRecord (s.ports[p])) s).orderly := openFrame_orderly hs p _
  unfold serveRepeat
  dsimp only
  split
  · exact hopen
  · exact rejectFrame_orderly hopen p

theorem serveFrame_orderly (bs : List Byte) : (serveFrame p bs s).orderly := by
  unfold serveFrame
  split
  · split
    · exact serveRead_orderly hs p _
    · split
      · exact serveRepeat_orderly hs p _
      · exact serveCommand_orderly hs p bs
  · exact serveCommand_orderly hs p bs

/-! ### Every step -/

omit p

/-- Every row leaves every port orderly. -/
theorem exec_orderly (i : Instr) {t : State} (ht : exec i s = .next t) : t.orderly := by
  have hrun : ∀ f, (s.run f).orderly := fun f => settles_orderly (settles_run s f) hs
  have hinput : ∀ i a f, (changeInput i a f s).orderly := fun i a f => settles_orderly (changeInput_settles s i a f) hs
  cases hi : i.command with
  | some q =>
    rw [exec_command i q.1 q.2 s hi] at ht
    cases ht
    exact submit_orderly hs _ _
  | none =>
    cases i with
    | coldStart => cases ht; exact (orderly_iff _).2 ⟨reset_queuesBounded, reset_waitsForRoom⟩
    | warmStart => cases ht; exact settles_orderly (warmStart_settles s) hs
    | commandFrame p bs => cases ht; exact serveFrame_orderly hs p bs
    | readFrame p n => cases ht; exact serveRead_orderly hs p n
    | repeatFrame p n => cases ht; exact serveRepeat_orderly hs p n
    | entrySensorChange z a => cases ht; exact hinput _ _ _
    | stopSensorChange z a => cases ht; exact hinput _ _ _
    | holdFeedbackChange z a => cases ht; exact hinput _ _ _
    | readyChange r a => cases ht; exact hinput _ _ _
    | estopLineChange k a => cases ht; exact hinput _ _ _
    | switchPositionChange n q a => cases ht; exact hinput _ _ _
    | moveArrival n => cases ht; exact settles_orderly (moveArrives_settles s n) hs
    | leaseExpiry p => cases ht; exact settles_orderly (leaseEnds_settles s p) hs
    | occupancySample => cases ht; exact settles_orderly (settles_run_of_ports s (t := { s with sampleDue := false }) rfl _) hs
    | passageGapExpiry z => cases ht; exact hrun _
    | passageLimitExpiry z => cases ht; exact hrun _
    | holdConfirmExpiry z => cases ht; exact hrun _
    | estopClearExpiry => cases ht; exact hrun _
    | moveLimitExpiry n => cases ht; exact hrun _
    | settleExpiry z => cases ht; exact hrun _
    | dwellExpiry t => cases ht; exact hrun _
    | departureWindowExpiry t => cases ht; exact hrun _
    | travelLimitExpiry t => cases ht; exact hrun _
    | claimWaitExpiry k => cases ht; exact hrun _
    | _ => cases hi

end

/-- Every step leaves every port orderly. -/
theorem orderly_kept : Kept State.orderly := by
  intro s t hs ht
  unfold step at ht
  split at ht
  · next rest _ => exact exec_orderly (s := { s with pending := rest }) hs _ ht
  · unfold stepIdle at ht
    split at ht
    · cases ht; exact settles_orderly (tick_settles s) hs
    · exact exec_orderly hs _ ht
    · exact exec_orderly (s := { s with choices := s.choices + 1 }) hs _ ht

end Sys2Proof.Machine

namespace Sys2Proof.Proofs
open Sys2Proof.Machine

/-- Settles O56: the queues port by port through what a command and an event make of them, the claim list through what each thing a
step can do makes of it. -/
theorem queuesAndClaimListStayBounded : Obligations.QueuesAndClaimListStayBounded :=
  ⟨fun s t hs ht => (orderly_iff t).1 (orderly_kept s t ((orderly_iff s).2 hs) ht), listBounded_rules.kept⟩

end Sys2Proof.Proofs
end

section
/-! SUPPORT. The position inputs and the moves of a switch (R126, R129 to R131): what a change of reading makes of each state, the end
of an attempt, and the loss of a position. -/

namespace Sys2Proof.Machine

/-! ### Changes of reading and arrivals (R126, R129) -/

section
variable {e : Env} {n : SwitchId} {w : Work}

/-- A switch that is UNKNOWN or FAILED, or has no record, takes no notice of its inputs. -/
theorem positionChange_deaf (h : w.switchState n = none ∨ w.switchState n = some .unknown ∨ w.switchState n = some .failed) :
    positionChange e n w = w := by
  unfold positionChange
  rcases h with h | h | h <;> rw [h]

theorem positionChange_settled {q : Position} (h : w.switchState n = some (.settled q)) :
    positionChange e n w = if e.positionRead n = some q then w else closeEvent e (losePosition e n w) := by
  unfold positionChange
  rw [h]

theorem positionChange_moving {q : Position} {l : Nat} {v : Served} (h : w.switchState n = some (.moving q l v)) :
    positionChange e n w = if e.positionRead n = some q then closeEvent e (arrive n w) else w := by
  unfold positionChange
  rw [h]

/-- A move arrives: the switch settles in its target, and the claim served is told. -/
theorem arrive_moving {q : Position} {l : Nat} {v : Served} (h : w.switchState n = some (.moving q l v)) :
    arrive n w = arriveFor n v ((w.modifySwitch n fun x => { x with
      state := .settled q, attempts := 0, driveStraight := false, driveDiverge := false }).post
      (servedPorts v) .switchSet (.switch n) (positionCode q)) := by
  unfold arrive
  rw [h]

theorem moveArrives_moving {s : State} {q : Position} {l : Nat} {v : Served} (h : s.track.switchState n = some (.moving q l v)) :
    moveArrives n s = (s.showPosition n q).run fun e w => closeEvent e (arrive n w) := by
  unfold moveArrives
  rw [h]

theorem moveArrives_still {s : State} (h : ∀ q l v, s.track.switchState n ≠ some (.moving q l v)) : moveArrives n s = s := by
  unfold moveArrives
  split
  · next q l v hm => exact absurd hm (h q l v)
  · rfl

/-! ### The end of an attempt (R130) -/

theorem switchState_record {w : Track} {r : Switch} (h : w.switches[n] = some r) : w.switchState n = some r.state := by
  unfold Track.switchState
  rw [h]
  rfl

theorem attemptEnds_still (h : ∀ q l v, w.switchState n ≠ some (.moving q l v)) : attemptEnds e n w = w := by
  unfold attemptEnds
  split
  · rfl
  · next r hr =>
    split
    · next q l v hm => exact absurd ((switchState_record hr).trans (congrArg some hm)) (h q l v)
    · rfl
    · rfl
    · rfl

theorem attemptEnds_moving {r : Switch} {q : Position} {l : Nat} {v : Served} (hr : w.switches[n] = some r)
    (hm : r.state = .moving q l v) : attemptEnds e n w =
      if r.attempts + 1 < 3 then retryMove e n q v (r.attempts + 1) w else closeEvent e (failMove n q v w) := by
  unfold attemptEnds
  simp only [hr, hm]

/-! ### The loss of a position (R131) -/

/-- The code of a reading (log 12). -/
theorem readingCode_eq (q : Option Position) : readingCode q = match q with
    | some .straight => 1
    | some .diverge => 2
    | none => 3 := by
  cases q with
  | none => rfl
  | some q => cases q <;> rfl

/-- A switch that has lost its position: UNKNOWN with its drives off, the release rule applied, SWITCH_LOST told. -/
def positionLost (e : Env) (n : SwitchId) (w : Work) : Work :=
  (applyRelease e (w.modifySwitch n fun x => { x with
      state := .unknown, attempts := 0, driveStraight := false, driveDiverge := false })).post
    (0 :: ((w.switches[n]).bind (·.sectionPort)).toList) .switchLost (.switch n)
    (match e.positionRead n with
      | some .straight => 1
      | some .diverge => 2
      | none => 3)
    (if isLocked e w.toTrack n then 1 else 0)

theorem losePosition_eq (e : Env) (n : SwitchId) (w : Work) : losePosition e n w =
    if isLocked e w.toTrack n then respondHalt e .switchLost (positionLost e n w) else positionLost e n w := by
  unfold losePosition positionLost
  rw [readingCode_eq]
  rfl

theorem positionLost_mode (e : Env) (n : SwitchId) (w : Work) : (positionLost e n w).mode = w.mode := by
  unfold positionLost
  rw [Work.post_mode, applyRelease_mode, Work.modifySwitch_mode]

/-- A locked switch that loses its position in OPERATING or STANDBY halts the ride (R131, R154). -/
theorem losePosition_halts (hl : isLocked e w.toTrack n = true) (hm : w.mode = .operating ∨ w.mode = .standby) :
    losePosition e n w = postMode w.mode (.fault .switchLost) (rideHalt e .halted (positionLost e n w)) := by
  have hmode := positionLost_mode e n w
  rw [losePosition_eq, if_pos hl, respondHalt_active e .switchLost (hm.imp hmode.trans hmode.trans), hmode]

theorem losePosition_unhalted (h : isLocked e w.toTrack n = false ∨ (w.mode ≠ .operating ∧ w.mode ≠ .standby)) :
    losePosition e n w = positionLost e n w := by
  have hmode := positionLost_mode e n w
  rw [losePosition_eq]
  split
  · next hl =>
    obtain ⟨ho, hs⟩ := h.resolve_left fun hf => Bool.noConfusion (hl.symm.trans hf)
    exact respondHalt_other e .switchLost (fun hm => ho (hmode.symm.trans hm)) fun hm => hs (hmode.symm.trans hm)
  · rfl

end

end Sys2Proof.Machine

namespace Sys2Proof.Proofs
open Sys2Proof.Machine

/-- Settles O44: a change of reading, an arrival and the end of an attempt by the state of the switch; the claim served by
`servedClaim_iff`; the loss of a position by the lock and the mode. -/
theorem switchInputsAndMoves : Obligations.SwitchInputsAndMoves := by
  intro s n arrives
  have harrive : ∀ (e : Env) (w : Work) q l v, w.switchState n = some (.moving q l v) →
      closeEvent e (arrive n w) = arrives e q v w := fun e w q l v h => congrArg (closeEvent e) (arrive_moving h)
  refine ⟨fun i a => ?_, fun q l v hm => ?_, fun hstill => ⟨?_, ?_⟩,
    fun r q l v hr hm => ⟨fun hless => ?_, fun hlast => ?_, fun w v c => ?_, fun e w => ⟨losePosition_halts, losePosition_unhalted⟩⟩⟩
  · intro u
    refine ⟨fun hseen => ?_, fun hdeaf => ?_, fun q hq hseen => ⟨fun hread => ?_, fun hread => ?_⟩,
      fun q l v hm hseen => ⟨fun hread => ?_, fun hread => ?_⟩⟩
    · exact congrArg Host.Outcome.next (if_pos hseen)
    · exact congrArg Host.Outcome.next (changeInput_same fun _ => positionChange_deaf (w := u.work) hdeaf)
    · exact congrArg Host.Outcome.next
        (changeInput_same fun _ => (positionChange_settled (w := u.work) hq).trans (if_pos hread))
    · exact congrArg Host.Outcome.next
        (changeInput_run hseen ((positionChange_settled (w := u.work) hq).trans (if_neg hread)))
    · exact congrArg Host.Outcome.next (changeInput_run hseen
        (((positionChange_moving (w := u.work) hm).trans (if_pos hread)).trans (harrive u.env u.work q l v hm)))
    · exact congrArg Host.Outcome.next
        (changeInput_same fun _ => (positionChange_moving (w := u.work) hm).trans (if_neg hread))
  · exact congrArg Host.Outcome.next ((moveArrives_moving hm).trans
      (run_congr (harrive (s.showPosition n q).env (s.showPosition n q).work q l v hm)))
  · exact congrArg Host.Outcome.next (moveArrives_still hstill)
  · exact congrArg Host.Outcome.next (run_same (attemptEnds_still (w := s.work) hstill))
  · refine congrArg Host.Outcome.next (run_congr ?_)
    rw [attemptEnds_moving (w := s.work) hr hm, if_pos (by omega)]
    unfold retryMove
    cases s.env.layout.switches[n] with
    | none => rfl
    | some y => rfl
  · refine congrArg Host.Outcome.next (run_congr ?_)
    rw [attemptEnds_moving (w := s.work) hr hm, if_neg (by omega)]
    rfl
  · intro serves
    have hserves : ∀ d : Claim, (∃ k, v = .claim k ∧ d.servedBy n k = true) ↔ serves d := fun d => by
      simp only [Claim.servedBy_iff]
      exact ⟨fun ⟨k, hv, hk, hns⟩ => ⟨hk ▸ hv, hns⟩, fun ⟨hv, hns⟩ => ⟨d.seq, hv, rfl, hns⟩⟩
    rw [servedClaim_iff]
    constructor
    · rintro ⟨k, hv, hc, as, bs, hcs, has⟩
      refine ⟨(hserves c).1 ⟨k, hv, hc⟩, as, bs, hcs, fun a ha h => ?_⟩
      obtain ⟨j, hj, hsv⟩ := (hserves a).2 h
      cases hv.symm.trans hj
      exact Bool.noConfusion ((has a ha).symm.trans hsv)
    · rintro ⟨hc, as, bs, hcs, has⟩
      obtain ⟨k, hv, hsv⟩ := (hserves c).2 hc
      exact ⟨k, hv, hsv, as, bs, hcs, fun a ha => eq_false_of_ne_true fun h => has a ha ((hserves a).1 ⟨k, hv, h⟩)⟩

end Sys2Proof.Proofs
end

section
/-! SUPPORT. The conditions of a grant (R99, R104, R107), each as the manual says it, and the bypass counts a grant raises (R106). -/

namespace Sys2Proof.Machine

/-! ### Overlap and the bar (R96, R107) -/

theorem meets_iff {α : Type} [DecidableEq α] (a b : List α) : meets a b = true ↔ ∃ x, x ∈ a ∧ x ∈ b := by
  unfold meets
  simp only [List.any_eq_true, decide_eq_true_eq]

/-- Two claims overlap when they share a zone or a switch (R96). -/
theorem overlaps_iff (c d : Claim) :
    c.overlaps d = true ↔ (∃ z, z ∈ c.zones ∧ z ∈ d.zones) ∨ ∃ n, n ∈ c.switches ∧ n ∈ d.switches := by
  unfold Claim.overlaps
  rw [Bool.or_eq_true, meets_iff, meets_iff]

/-- A WAITING claim is barred when its count has reached a limit other than 0 (R107). -/
theorem barred_false (l : Layout) (c : Claim) :
    barred l c = false ↔ (c.state = .waiting → l.bypassLimit = 0 ∨ c.bypass < l.bypassLimit) := by
  unfold barred
  rw [← isWaiting_iff]
  simp only [Bool.and_eq_false_iff, decide_eq_false_iff_not, not_not, not_le]
  cases c.isWaiting <;> simp

/-! ### LEG claims (R99) -/

section
variable (e : Env) (w : Track)

/-- A requirement is met by a switch of no section that is settled in position, or movable: settled or UNKNOWN, and not locked. -/
theorem requirementMet_iff (q : Requirement) : requirementMet e w q = true ↔
    ∃ r, w.switches[q.switch] = some r ∧ r.sectionPort = none ∧ (r.state = .settled q.position ∨
      ((r.state = .unknown ∨ ∃ x, r.state = .settled x) ∧ isLocked e w q.switch = false)) := by
  unfold requirementMet
  cases w.switches[q.switch] with
  | none => simp
  | some r =>
    cases hs : r.state with
    | settled x =>
      by_cases hx : x = q.position
      · simp [hs, hx]
      · simp [hs, hx]
    | unknown => simp [hs]
    | moving x l v => simp [hs]
    | failed => simp [hs]

theorem legGrantable_iff (g : LegClaim) : legGrantable e w g = true ↔
    w.mode = .operating ∧ (∀ z ∈ g.zones, w.zoneState z = some .clear) ∧ ∀ q ∈ g.reqs, requirementMet e w q = true := by
  unfold legGrantable
  simp only [Bool.and_eq_true, List.all_eq_true, decide_eq_true_eq, and_assoc]

/-! ### SECTION claims (R104) -/

theorem sectionMode_iff (m : Mode) : sectionMode m = true ↔ m = .standby ∨ m = .operating ∨ m = .halted := by
  cases m <;> simp [sectionMode]

theorem handable_iff (z : ZoneId) : handable w z = true ↔
    w.zoneState z = some .clear ∨ w.zoneState z = some .unknown ∨ (∃ k, w.zoneState z = some (.fault k)) ∨
      ∃ t : TrainId, w.zoneState z = some (.occupied t) ∧
        ((w.trains[t]).state = .standing ∨ (w.trains[t]).state = .claiming ∨ (w.trains[t]).state = .stored) := by
  unfold handable
  cases w.zoneState z with
  | none => simp
  | some x =>
    cases x with
    | occupied t => cases hs : (w.trains[t]).state <;> rw [Fin.getElem_fin] at hs <;> simp [hs]
    | _ => simp

theorem switchMoving_false (n : SwitchId) : switchMoving w n = false ↔ ∀ r, w.switches[n] = some r → r.isMoving = false := by
  unfold switchMoving
  cases w.switches[n] with
  | none => simp
  | some r => simp

theorem sectionGrantable_conditions (g : SectionClaim) : sectionGrantable w g = true ↔
    sectionMode w.mode = true ∧ (∀ z ∈ g.zones, handable w z = true) ∧ ∀ n ∈ g.switches, switchMoving w n = false := by
  unfold sectionGrantable
  simp only [Bool.and_eq_true, Bool.not_eq_true', List.all_eq_true, List.any_eq_false, Bool.not_eq_true, and_assoc]

/-! ### A claim the scan reaches (R98) -/

theorem grantable_conditions (i : Nat) (c : Claim) : grantable e w i c = true ↔
    c.state = .waiting ∧ (∀ d ∈ w.claims.take i, d.overlaps c = true → barred e.layout d = false) ∧
    (∀ g, c.body = .leg g → legGrantable e w g = true) ∧ ∀ g, c.body = .sectionOf g → sectionGrantable w g = true := by
  have hbar : ((w.claims.take i).any fun d => d.overlaps c && barred e.layout d) = false ↔
      ∀ d ∈ w.claims.take i, d.overlaps c = true → barred e.layout d = false := by
    simp only [List.any_eq_false, Bool.and_eq_true, not_and, Bool.not_eq_true]
  unfold grantable
  simp only [Bool.and_eq_true, Bool.not_eq_true', isWaiting_iff, hbar]
  cases c.body with
  | leg g =>
    simp only [ClaimBody.leg.injEq, forall_eq', reduceCtorEq, false_implies, implies_true, and_true]
    exact and_right_comm.trans and_assoc
  | sectionOf g =>
    simp only [ClaimBody.sectionOf.injEq, forall_eq', reduceCtorEq, false_implies, implies_true, true_and]
    exact and_right_comm.trans and_assoc

end

/-! ### Bypass counts (R106) -/

section
variable (i : Nat) (c : Claim) (w : Work)

/-- A claim older than the granted one after the grant. -/
def bypassed (c d : Claim) : Claim := if d.isWaiting && d.overlaps c then { d with bypass := min 7 (d.bypass + 1) } else d

theorem raiseBypass_claims : (raiseBypass i c w).claims = (w.claims.take i).map (bypassed c) ++ w.claims.drop i := rfl

theorem raiseBypass_length : (raiseBypass i c w).claims.length = w.claims.length := by
  rw [raiseBypass_claims, List.length_append, List.length_map, ← List.length_append, List.take_append_drop]

theorem raiseBypass_older {j : Nat} {d : Claim} (hj : j < i) (hd : w.claims[j]? = some d) :
    (raiseBypass i c w).claims[j]? = some (bypassed c d) := by
  obtain ⟨hlen, rfl⟩ := List.getElem?_eq_some_iff.1 hd
  have hlt : j < ((w.claims.take i).map (bypassed c)).length := by
    rw [List.length_map, List.length_take]
    omega
  rw [raiseBypass_claims, List.getElem?_append_left hlt, List.getElem?_map, List.getElem?_take_of_lt hj, hd]
  rfl

theorem raiseBypass_younger {j : Nat} (hj : i ≤ j) : (raiseBypass i c w).claims[j]? = w.claims[j]? := by
  by_cases hlen : i ≤ w.claims.length
  · have hpre : ((w.claims.take i).map (bypassed c)).length = i := by rw [List.length_map, List.length_take_of_le hlen]
    rw [raiseBypass_claims, List.getElem?_append_right (hpre.trans_le hj), hpre, List.getElem?_drop, Nat.add_sub_cancel' hj]
  · have hshort : w.claims.length ≤ j := by omega
    rw [List.getElem?_eq_none hshort, List.getElem?_eq_none ((raiseBypass_length i c w).trans_le hshort)]

end

end Sys2Proof.Machine

namespace Sys2Proof.Proofs
open Sys2Proof.Machine

/-- Settles O48: each condition by its own equivalence, and the counts by the place of a claim before or behind the granted one. -/
theorem grantConditions : Obligations.GrantConditions := by
  unfold Obligations.GrantConditions
  intro overlap
  have hover : ∀ c d : Claim, c.overlaps d = true ↔ overlap c d := overlaps_iff
  refine ⟨fun e w i c => ?_, fun i c w => ⟨raiseBypass_length i c w, rfl, fun j d hd => ⟨fun hj hs ho => ?_, fun h => ?_⟩⟩⟩
  · simp only [grantable_conditions, hover, barred_false, legGrantable_iff, requirementMet_iff, sectionGrantable_conditions,
      sectionMode_iff, handable_iff, switchMoving_false]
    exact and_congr_right fun _ => and_congr_left fun _ => forall₂_congr fun d _ => forall_comm
  · rw [raiseBypass_older i c w hj hd]
    unfold bypassed
    rw [if_pos (Bool.and_eq_true_iff.2 ⟨(isWaiting_iff d).2 hs, (hover d c).2 ho⟩)]
  · by_cases hj : i ≤ j
    · rw [raiseBypass_younger i c w hj, hd]
    · rw [raiseBypass_older i c w (Nat.lt_of_not_le hj) hd]
      unfold bypassed
      rw [if_neg]
      rw [Bool.and_eq_true, isWaiting_iff, hover]
      rintro ⟨hs, ho⟩
      exact h.elim hj fun h => h.elim (absurd hs) (absurd ho)

end Sys2Proof.Proofs
end

section
/-! SUPPORT. The grant of a SECTION claim (R105, R140), the evaluation (R97, R98) and the YIELD advisory (R141): a train made MANUAL,
the scans of the claim list, and the oldest claim that overlaps a section. -/

namespace Sys2Proof.Machine

/-! ### The claims of one train withdrawn (R58, R110) -/

theorem startsAt_isLegOf {c : Claim} {t : TrainId} {z : ZoneId} (h : c.startsAt t z = true) : c.isLegOf t = true := by
  unfold Claim.startsAt at h
  unfold Claim.isLegOf
  cases hl : c.legOf t with
  | none => rw [hl] at h; cases h
  | some g => rfl

theorem endsWith_isLegOf {t : TrainId} {k : Nat} {w : Work} {c : Claim} (h : endsWith t k w c = true) : c.isLegOf t = true := by
  unfold endsWith at h
  obtain ⟨g, -, hg⟩ := List.any_eq_true.1 h
  cases hz : g.zones.getLast? with
  | none => rw [hz] at hg; cases hg
  | some z => rw [hz] at hg; exact startsAt_isLegOf hg

/-- The same claim is of the same train. -/
theorem same_isLegOf {c d : Claim} {t : TrainId} (h : d.same c = true) : d.isLegOf t = c.isLegOf t := by
  unfold Claim.same at h
  rw [Bool.and_eq_true, decide_eq_true_eq, decide_eq_true_eq] at h
  unfold Claim.isLegOf Claim.legOf
  rw [h.2]

theorem isLegOf_iff {c : Claim} {t : TrainId} : c.isLegOf t = true ↔ ∃ g, c.body = .leg g ∧ g.train = t := by
  unfold Claim.isLegOf Claim.legOf
  cases c.body with
  | leg g => by_cases h : g.train = t <;> simp [h]
  | sectionOf g => simp

/-- What withdrawing claims of train `t` changes: its state and its authority, zones RESERVED by it, its own claims, and moves. -/
structure Unclaimed (t : TrainId) (a b : Work) : Prop where
  train : ∃ x g, b.trains[t] = { a.trains[t] with state := x, authority := g }
  others : ∀ u : TrainId, u ≠ t → b.trains[u] = a.trains[u]
  zone : ∀ z, b.zoneState z = a.zoneState z ∨ (a.zoneState z = some (.reserved t) ∧ b.zoneState z = some .clear)
  claims : (b.claims ++ b.line).filter (fun c => !c.isLegOf t) = (a.claims ++ a.line).filter fun c => !c.isLegOf t
  frame : besidesLoss a b = a

section
variable {t : TrainId}

theorem Unclaimed.refl (w : Work) : Unclaimed t w w := ⟨⟨_, _, rfl⟩, fun _ _ => rfl, fun _ => .inl rfl, rfl, rfl⟩

theorem Unclaimed.trans {a b c : Work} (h : Unclaimed t a b) (k : Unclaimed t b c) : Unclaimed t a c where
  train := by
    obtain ⟨x, g, hb⟩ := h.train
    obtain ⟨y, i, hc⟩ := k.train
    exact ⟨y, i, by rw [hc, hb]⟩
  others u hu := (k.others u hu).trans (h.others u hu)
  zone z := by
    rcases k.zone z with hc | ⟨hb, hc⟩
    · rw [hc]
      exact h.zone z
    · rcases h.zone z with ha | ⟨ha, -⟩
      · exact .inr ⟨ha ▸ hb, hc⟩
      · exact .inr ⟨ha, hc⟩
  claims := k.claims.trans h.claims
  frame := (congrArg (besidesLoss a) k.frame).trans h.frame

/-- Claims of the train leave (R94). -/
theorem unclaimed_dropClaims {gone : Claim → Bool} (hg : ∀ c, gone c = true → c.isLegOf t = true) (w : Work) :
    Unclaimed t w (dropClaims gone w) where
  train := ⟨_, _, rfl⟩
  others _ _ := rfl
  zone _ := .inl rfl
  claims := by
    rw [dropClaims_all, List.filter_filter]
    refine List.filter_congr fun c _ => ?_
    cases hc : gone c with
    | true => simp [hg c hc]
    | false => simp
  frame := rfl

/-- Leg entries of the train are removed (R58). -/
theorem unclaimed_removeEntries (k : Nat) (w : Work) : Unclaimed t w (removeEntries t k w) where
  train := ⟨_, _, removeEntries_self t k w⟩
  others _ hu := removeEntries_other t k w hu
  zone z := by
    rw [removeEntries_zoneState]
    split
    · next h => exact .inr ⟨h.2, rfl⟩
    · exact .inl rfl
  claims := by
    rw [removeEntries_all, List.filter_filter]
    refine List.filter_congr fun c _ => ?_
    cases hc : endsWith t k w c with
    | true => simp [endsWith_isLegOf hc]
    | false => simp
  frame := congrArg (fun v : Work => { v with posts := w.posts }) (removeEntries_frame t k w)

theorem unclaimed_standIfClaimless (w : Work) : Unclaimed t w (standIfClaimless t w) := by
  by_cases h : ∃ z, claimless t w.toTrack z
  · obtain ⟨z, hz⟩ := h
    rw [standIfClaimless_alone hz]
    exact ⟨⟨_, _, setTrain_self _ _ _⟩, fun u hu => setTrain_other w _ hu, fun _ => .inl rfl, rfl, rfl⟩
  · rw [standIfClaimless_claimed (not_exists.1 h)]
    exact .refl w

/-- A claim of the train is withdrawn (R110). -/
theorem unclaimed_withdrawClaim {c : Claim} (hc : c.isLegOf t = true) (w : Work) : Unclaimed t w (withdrawClaim c w) := by
  obtain ⟨g, hb, rfl⟩ := isLegOf_iff.1 hc
  have hentry : Unclaimed g.train w (releaseEntryOf c w) := by
    unfold releaseEntryOf
    rw [hb]
    cases c.state with
    | waiting => exact .refl w
    | setting ns => exact unclaimed_removeEntries _ w
  rw [withdrawClaim_leg hb]
  exact (hentry.trans (unclaimed_dropClaims (fun d hd => (same_isLegOf hd).trans hc) _)).trans (unclaimed_standIfClaimless _)

theorem unclaimed_withdrawAll (w : Work) : Unclaimed t w (withdrawAll (fun c => c.isLegOf t) w) := by
  have heach : ∀ (cs : List Claim), (∀ c ∈ cs, c.isLegOf t = true) → ∀ v, Unclaimed t v (withdrawEach cs v) := by
    intro cs hcs
    induction cs with
    | nil => exact fun v => .refl v
    | cons c cs ih =>
      intro v
      refine Unclaimed.trans ?_ (ih (fun d hd => hcs d (List.mem_cons_of_mem _ hd)) _)
      beta_reduce
      split
      · exact unclaimed_withdrawClaim (hcs c List.mem_cons_self) v
      · exact .refl v
  exact heach _ (fun c hc => (List.mem_filter.1 hc).2) w

theorem withdrawClaim_posts (c : Claim) (w : Work) : (withdrawClaim c w).posts = w.posts := by
  have hentry : (releaseEntryOf c w).posts = w.posts := by
    unfold releaseEntryOf
    split
    · exact removeEntries_posts _ _ w
    · rfl
  cases hb : c.body with
  | leg g => rw [withdrawClaim_leg hb]; exact hentry
  | sectionOf g => rw [withdrawClaim_section hb]; exact hentry

theorem withdrawAll_posts (gone : Claim → Bool) (w : Work) : (withdrawAll gone w).posts = w.posts := by
  unfold withdrawAll
  refine foldl_keeps (fun v => v.posts) _ (fun v c => ?_) _ w
  split
  · exact withdrawClaim_posts c v
  · rfl

/-- The other claims stay in their order, list before line. -/
theorem withdrawAll_others (w : Work) : (withdrawAll (fun c => c.isLegOf t) w).claims ++ (withdrawAll (fun c => c.isLegOf t) w).line =
    (w.claims ++ w.line).filter fun c => !c.isLegOf t := by
  rw [← (unclaimed_withdrawAll w).claims, List.filter_eq_self.2]
  intro d hd
  obtain ⟨-, hleg⟩ := withdrawAll_sub _ w d hd
  rw [hleg]
  rfl

end

/-! ### A train made MANUAL (R105, R140) -/

section
variable (p : PortId) (t : TrainId) (w : Work)

/-- The claims of the train withdrawn, and the notice of its dispatch or move in progress posted (R121, R123). -/
def handedOver : Work :=
  { withdrawAll (fun c => c.isLegOf t) w with posts := w.posts ++ w.abortPosts t 6 }

theorem makeManual_eq : makeManual p t w = (removeEntries t 0 (handedOver t w)).modifyTrain t fun r =>
    { r.dropTimers with state := .manual, footprint := [], sectionPort := some p } := by
  have hpost : postAbort t (progressOrigin w.toTrack t) .handover (withdrawAll (fun c => c.isLegOf t) w) = handedOver t w := by
    rw [postAbort_progress, withdrawAll_posts]
    rfl
  unfold makeManual
  dsimp only
  rw [hpost]

/-- The train's claims withdrawn and its entries removed. -/
theorem unclaimed_handedOver : Unclaimed t w (removeEntries t 0 (handedOver t w)) := by
  obtain ⟨htrain, hothers, hzone, hclaims, hframe⟩ := unclaimed_withdrawAll (t := t) w
  have hover : Unclaimed t w (handedOver t w) := ⟨htrain, hothers, hzone, hclaims, hframe⟩
  exact hover.trans (unclaimed_removeEntries 0 _)

theorem makeManual_self : (makeManual p t w).trains[t] = { w.trains[t] with
    state := .manual, footprint := [], authority := [], sectionPort := some p, dwell := none, departure := none, travel := none } := by
  obtain ⟨x, g, hv⟩ := (unclaimed_withdrawAll (t := t) w).train
  have hover : (handedOver t w).trains[t] = { w.trains[t] with state := x, authority := g } := hv
  rw [makeManual_eq, modifyTrain_self, removeEntries_self, hover]
  rfl

theorem makeManual_other {u : TrainId} (hu : u ≠ t) : (makeManual p t w).trains[u] = w.trains[u] := by
  rw [makeManual_eq, modifyTrain_other _ _ hu]
  exact (unclaimed_handedOver t w).others u hu

theorem makeManual_zone (z : ZoneId) : (makeManual p t w).zoneState z = w.zoneState z ∨
    (w.zoneState z = some (.reserved t) ∧ (makeManual p t w).zoneState z = some .clear) := by
  rw [makeManual_eq]
  exact (unclaimed_handedOver t w).zone z

theorem makeManual_posts : (makeManual p t w).posts = w.posts ++ w.abortPosts t 6 := by
  rw [makeManual_eq, Work.modifyTrain_posts, removeEntries_posts]
  rfl

/-- The train's own claims leave; the others keep their order, the first 12 in the list. -/
theorem makeManual_claims :
    (makeManual p t w).claims = ((w.claims ++ w.line).filter fun c => !c.isLegOf t).take 12 ∧
    (makeManual p t w).line = ((w.claims ++ w.line).filter fun c => !c.isLegOf t).drop 12 := by
  have hover : (handedOver t w).claims ++ (handedOver t w).line = (w.claims ++ w.line).filter fun c => !c.isLegOf t :=
    withdrawAll_others w
  have hstay : ((w.claims ++ w.line).filter fun c => !c.isLegOf t).filter (fun c => !endsWith t 0 (handedOver t w) c) =
      (w.claims ++ w.line).filter fun c => !c.isLegOf t := by
    refine List.filter_eq_self.2 fun c hc => ?_
    have hother : c.isLegOf t = false := by simpa using List.of_mem_filter hc
    rw [Bool.not_eq_true']
    exact eq_false_of_ne_true fun he => Bool.noConfusion ((endsWith_isLegOf he).symm.trans hother)
  obtain ⟨hlist, hline⟩ := removeEntries_claims t 0 (handedOver t w)
  rw [hover, hstay] at hlist hline
  rw [makeManual_eq]
  exact ⟨hlist, hline⟩

theorem makeManual_frame : besidesLoss w (makeManual p t w) = w := by
  rw [makeManual_eq]
  exact (unclaimed_handedOver t w).frame

end

/-! ### The grant (R105, R140) -/

theorem stoppableZones_eq (e : Env) (zs : List ZoneId) :
    stoppableZones e zs = zs.filter fun z => (e.layout.zones[z]).any fun r => decide (r.kind ≠ .run) := by
  unfold stoppableZones Env.zone
  refine List.filter_congr fun z _ => ?_
  cases e.layout.zones[z] with
  | none => rfl
  | some r => exact Bool.eq_iff_iff.2 ((stoppable_iff r.kind).trans decide_eq_true_iff.symm)

/-! ### The scans of one evaluation (R98) -/

section
variable {e : Env} {k i : Nat} {g : Bool} {w : Work}

theorem scanClaims_end (h : w.claims.length ≤ i) :
    scanClaims e (k + 1) i g w = if g then scanClaims e k 0 false w else w := by
  rw [scanClaims]
  simp only [List.getElem?_eq_none h]

section
variable {c : Claim} (hc : w.claims[i]? = some c)
include hc

theorem scanClaims_passes (h : grantable e w.toTrack i c = false) :
    scanClaims e (k + 1) i g w = scanClaims e k (i + 1) g w := by
  rw [scanClaims]
  simp only [hc, h, Bool.false_eq_true, if_false]

theorem scanClaims_grants (h : grantable e w.toTrack i c = true) :
    scanClaims e (k + 1) i g w = scanClaims e k (scannedAfter w.claims i (grant e i c w).claims) true (grant e i c w) := by
  rw [scanClaims]
  simp only [hc, h, if_true]

end

end

/-- The entry behind the longest run that satisfies a property is the first of the rest. -/
theorem getElem?_takeWhile_length {α : Type} (f : α → Bool) (l : List α) : l[(l.takeWhile f).length]? = (l.dropWhile f).head? :=
  calc l[(l.takeWhile f).length]?
    _ = (l.takeWhile f ++ l.dropWhile f)[(l.takeWhile f).length]? := by rw [List.takeWhile_append_dropWhile]
    _ = (l.dropWhile f)[0]? := by rw [List.getElem?_append_right le_rfl, Nat.sub_self]
    _ = (l.dropWhile f).head? := List.head?_eq_getElem?.symm

/-- The claim is one of those the scan had reached, at position `i` of the list before the grant. -/
def reached (before : List Claim) (i : Nat) (d : Claim) : Bool := (before.take (i + 1)).any fun x => x.same d

theorem scannedAfter_eq (before after : List Claim) (i : Nat) :
    scannedAfter before i after = (after.takeWhile (reached before i)).length := rfl

/-- The claims before the scan after a grant are claims that it had reached before. -/
theorem scannedAfter_before (before after : List Claim) (i : Nat) :
    ∀ d ∈ after.take (scannedAfter before i after), ∃ x ∈ before.take (i + 1), x.same d = true := by
  rw [scannedAfter_eq, ← List.prefix_iff_eq_take.1 (List.takeWhile_prefix _)]
  intro d hd
  have hr : reached before i d = true := List.mem_takeWhile_imp hd
  exact List.any_eq_true.1 hr

/-- The claim at which the scan goes on after a grant is one that it had not reached. -/
theorem scannedAfter_next {before after : List Claim} {i : Nat} {d : Claim} (hd : after[scannedAfter before i after]? = some d) :
    ∀ x ∈ before.take (i + 1), x.same d = false := by
  rw [scannedAfter_eq, getElem?_takeWhile_length] at hd
  have hno : reached before i d = false := by simpa only [hd] using List.head?_dropWhile_not (reached before i) after
  exact fun x hx => eq_false_of_ne_true (List.any_eq_false.1 hno x hx)

/-! ### The YIELD advisory (R141) -/

/-- A WAITING claim shares a zone or a switch with the section. -/
def Claim.waitsFor (c : Claim) (h : HeldSection) : Prop :=
  c.state = .waiting ∧ ((∃ z ∈ c.zones, z ∈ h.zones) ∨ ∃ n ∈ c.switches, n ∈ h.switches)

theorem waitsFor_iff (c : Claim) (h : HeldSection) : (c.isWaiting && c.overlapsSection h) = true ↔ c.waitsFor h := by
  unfold Claim.overlapsSection Claim.waitsFor
  rw [Bool.and_eq_true, Bool.or_eq_true, meets_iff, meets_iff, isWaiting_iff]

theorem oldestOverlap_none {w : Track} {h : HeldSection} : oldestOverlap w h = none ↔ ∀ c ∈ w.claims, ¬ c.waitsFor h := by
  unfold oldestOverlap
  simp only [List.find?_eq_none, waitsFor_iff]

theorem oldestOverlap_some {w : Track} {h : HeldSection} {as bs : List Claim} {c : Claim} (hw : w.claims = as ++ c :: bs)
    (hc : c.waitsFor h) (has : ∀ a ∈ as, ¬ a.waitsFor h) : oldestOverlap w h = some c := by
  unfold oldestOverlap
  refine List.find?_eq_some_iff_append.2 ⟨(waitsFor_iff c h).2 hc, as, bs, hw, fun a ha => ?_⟩
  rw [Bool.not_eq_true']
  exact eq_false_of_ne_true fun hx => has a ha ((waitsFor_iff a h).1 hx)

section
variable {p : PortId} {w : Work}

theorem judgeYieldOf_unheld (h : ∀ x, w.sections[p] ≠ .held x) : judgeYieldOf p w = w := by
  unfold judgeYieldOf
  rw [heldSection_none h]

variable {h : HeldSection} (hs : w.sections[p] = .held h)
include hs

theorem judgeYieldOf_alone (ho : oldestOverlap w.toTrack h = none) :
    judgeYieldOf p w = w.setSection p (.held { h with yield := false }) := by
  unfold judgeYieldOf
  simp only [(heldSection_iff w.toTrack p h).2 hs, ho]

theorem judgeYieldOf_overlapped {c : Claim} (ho : oldestOverlap w.toTrack h = some c) : judgeYieldOf p w =
    if h.yield then w else (w.setSection p (.held { h with yield := true })).post [p] .yield (.port p) c.seq := by
  unfold judgeYieldOf
  simp only [(heldSection_iff w.toTrack p h).2 hs, ho]

end

end Sys2Proof.Machine

namespace Sys2Proof.Proofs
open Sys2Proof.Machine

/-- Settles O50: the grant by its steps, a train made MANUAL by what withdrawing its claims changes, the scans by the claim they reach,
the advisory by the oldest claim that overlaps. -/
theorem sectionGrantEvaluationAndYield : Obligations.SectionGrantEvaluationAndYield := by
  refine ⟨fun e i c g w hb => ?_, fun p t w => ?_, fun e w => rfl, fun e k i g w => ⟨scanClaims_end, fun c hc =>
    ⟨scanClaims_passes hc, fun hg => ?_⟩⟩, fun w => rfl, fun p w => ⟨judgeYieldOf_unheld, fun h hs => ?_⟩⟩
  · have hgrant : grant e i c w = grantSection e i c g w := by
      unfold grant
      rw [hb]
    rw [hgrant]
    unfold grantSection
    rw [stoppableZones_eq]
    rfl
  · obtain ⟨hlist, hline⟩ := makeManual_claims p t w
    refine ⟨makeManual_self p t w, fun u hu => makeManual_other p t w hu, hlist, hline, makeManual_posts p t w,
      fun z hz => (makeManual_zone p t w z).resolve_right fun h => hz h.1, fun z => (makeManual_zone p t w z).imp_right And.right,
      makeManual_frame p t w⟩
  · exact ⟨_, scanClaims_grants hc hg, scannedAfter_before _ _ _, fun d hd => scannedAfter_next hd⟩
  · refine ⟨fun hno => judgeYieldOf_alone hs (oldestOverlap_none.2 hno), fun as bs c hw hc has => ?_⟩
    have hj := judgeYieldOf_overlapped hs (oldestOverlap_some hw hc has)
    exact ⟨fun hy => hj.trans (if_pos hy), fun hy => hj.trans (if_neg (hy ▸ Bool.false_ne_true))⟩

end Sys2Proof.Proofs
end

section
/-! SUPPORT. Command rows and the head of a command queue (R168, R171), and the pre-lapse mark (R176). -/

namespace Sys2Proof.Machine

/-! ### The head of a command queue -/

section
variable {s : State} {p : PortId}

/-- With room in the command queue the command joins it, and the head is taken (R168, R171). -/
theorem submit_room (c : Command) (h : (s.ports[p]).commands.length < Config.commandQueueSize) :
    submit p c s = runHead p (s.modifyPort p (Port.queueCommand (directCommand c))) := if_pos h

theorem runHead_full (h : Config.replyQueueSize ≤ (s.ports[p]).replies.length) : runHead p s = s := by
  unfold runHead
  split
  · rfl
  · exact if_neg (Nat.not_lt.2 h)

theorem runHead_executes {c : Queued} {rest : List Queued} (hc : (s.ports[p]).commands = c :: rest)
    (hr : (s.ports[p]).replies.length < Config.replyQueueSize) : runHead p s = executeHead p c rest s := by
  unfold runHead
  rw [hc]
  exact if_pos hr

/-- The reply of a command that is executed stands behind what the command comes to. -/
theorem executeHead_replied {c : Queued} {rest : List Queued} {t : State} {b : ReplyBody}
    (h : answer p c (s.modifyPort p fun r => { r with commands := rest }) = (t, b)) :
    executeHead p c rest s = replied p c.code b t := by
  unfold executeHead
  rw [h]
  rfl

theorem answer_unread {c : Queued} (h : c.command = none) : answer p c s = refuse .argument s := by
  unfold answer
  rw [h]

theorem answer_read {c : Queued} {x : Command} (h : c.command = some x) : answer p c s = perform p c.preLapse x s := by
  unfold answer
  rw [h]

/-! ### The pre-lapse mark (R176) -/

/-- DISPATCH with the mark is refused: by its examination, or at the latest for the mark. -/
theorem performDispatch_marked (n : Nat) : ∃ r, performDispatch p true n s = refuse r s := by
  unfold performDispatch
  split
  · exact ⟨_, rfl⟩
  · split
    · exact ⟨_, rfl⟩
    · split <;> exact ⟨_, rfl⟩

theorem performMove_marked (n : Nat) : ∃ r, performMove p true n s = refuse r s := by
  unfold performMove
  split
  · exact ⟨_, rfl⟩
  · split
    · exact ⟨_, rfl⟩
    · split <;> exact ⟨_, rfl⟩

theorem tryRequest_marked (zs : List Nat) (x : Option Nat) : ∃ r, tryRequest p true zs x s = refuse r s := by
  unfold tryRequest
  split
  · split <;> exact ⟨_, rfl⟩
  · exact ⟨_, rfl⟩

theorem performRequestSection_marked (zs : List Nat) (x : Option Nat) : ∃ r, performRequestSection p true zs x s = refuse r s := by
  unfold performRequestSection
  split
  · exact ⟨_, rfl⟩
  · split
    · exact ⟨_, rfl⟩
    · exact tryRequest_marked zs x

/-- No command but these three reads the mark. -/
theorem perform_unmarked {c : Command} (hd : ∀ z, c ≠ .dispatch z) (hm : ∀ z, c ≠ .move z)
    (hr : ∀ zs x, c ≠ .requestSection zs x) :
    perform p true c s = perform p false c s := by
  cases c with
  | dispatch z => exact absurd rfl (hd z)
  | move z => exact absurd rfl (hm z)
  | requestSection zs x => exact absurd rfl (hr zs x)
  | _ => rfl

end

end Sys2Proof.Machine

namespace Sys2Proof.Proofs
open Sys2Proof.Machine

/-- Settles O7: the row by the room in its two queues, the head by what its command reads as, the mark command by command. -/
theorem commandRowsAndHead : Obligations.CommandRowsAndHead := by
  refine ⟨fun s i p c hi => ?_, fun s p => ⟨runHead_none s p, runHead_full, fun c rest hc hr => ⟨fun hx => ?_, fun x hx => ?_⟩⟩,
    fun s p => ⟨performDispatch_marked, performMove_marked, performRequestSection_marked, fun c => perform_unmarked⟩⟩
  · rw [exec_command i p c s hi]
    exact ⟨fun h => congrArg _ (submit_idle s p c h), fun h => congrArg _ (submit_full s p c h),
      fun h => congrArg _ (submit_room c h)⟩
  · rw [runHead_executes hc hr]
    exact executeHead_replied (answer_unread hx)
  · rw [runHead_executes hc hr]
    exact executeHead_replied (answer_read hx)

end Sys2Proof.Proofs
end

section
/-! SUPPORT. Resume (R160) and the claims withdrawn on entry into STANDBY (R162). -/

namespace Sys2Proof.Machine

/-! ### Resume (R160) -/

/-- A train that resume admits: STANDING, without a claim, not stalled and not at the route's end. -/
def mayResume (w : Track) (t : TrainId) : Prop :=
  (w.trains[t]).state = .standing ∧ (∀ c ∈ w.claims ++ w.line, c.isLegOf t = false) ∧ (w.trains[t]).stalled = false ∧
  (w.trains[t]).atEnd = false

theorem admitted_iff (w : Track) (t : TrainId) : admitted w t = true ↔ mayResume w t := by
  unfold admitted mayResume Track.allClaims
  simp only [Bool.and_eq_true, Bool.not_eq_true', decide_eq_true_eq, List.any_eq_false, Bool.not_eq_true, and_assoc]

section
variable {e : Env} {t : TrainId} {w : Work}

theorem resumeTrain_barred (h : ¬ mayResume w.toTrack t) : resumeTrain e t w = w := if_neg (mt (admitted_iff _ t).1 h)

theorem resumeTrain_pass (h : mayResume w.toTrack t) (ha : e.cursorAction w.trains[t] = some .pass) :
    resumeTrain e t w = formAtRest e t .auto none w := by
  unfold resumeTrain
  rw [if_pos ((admitted_iff _ t).2 h), ha]

theorem resumeTrain_hold {d : Nat} (h : mayResume w.toTrack t) (ha : e.cursorAction w.trains[t] = some (.hold d)) :
    resumeTrain e t w = startDwell e t d w := by
  unfold resumeTrain
  rw [if_pos ((admitted_iff _ t).2 h), ha]

/-- At a DISPATCH or PARK step, and without a step, an admitted train waits for its master. -/
theorem resumeTrain_elsewhere (hp : e.cursorAction w.trains[t] ≠ some .pass)
    (hh : ∀ d, e.cursorAction w.trains[t] ≠ some (.hold d)) : resumeTrain e t w = w := by
  unfold resumeTrain
  split
  · split
    · next ha => exact absurd ha hp
    · next d ha => exact absurd ha (hh d)
    all_goals rfl
  · rfl

theorem startDwell_runs {d : Nat} (h : d ≠ 0) :
    startDwell e t d w = w.setTrain t { w.trains[t] with dwell := some (d * 100) } := if_neg h

/-- A dwell of 0 ends in the same event (R113). -/
theorem startDwell_zero :
    startDwell e t 0 w = formAtRest e t .auto none (w.setTrain t { w.trains[t] with dwell := none }) := rfl

end

/-! ### LEG claims on entry into STANDBY (R162) -/

section
variable {c : Claim}

theorem standbyClaim_leg {g : LegClaim} (h : c.body = .leg g) (w : Work) :
    standbyClaim c w = postAbort g.train (some g.origin) .standby (withdrawClaim c w) := by
  unfold standbyClaim
  rw [h]

theorem standbyClaim_section {g : SectionClaim} (h : c.body = .sectionOf g) (w : Work) : standbyClaim c w = w := by
  unfold standbyClaim
  rw [h]

end

end Sys2Proof.Machine

namespace Sys2Proof.Proofs
open Sys2Proof.Machine

/-- Settles O25: an admitted train by the action of its step, a claim by its kind and its origin. -/
theorem resumeAndStandby : Obligations.ResumeAndStandby := by
  refine ⟨fun e w => rfl, fun e t w => ⟨resumeTrain_pass, fun d hm ha hd => ?_, fun hm ha => ?_, fun h => ?_⟩,
    fun c w => ⟨fun g p hb ho => ?_, fun g p hb ho => ?_, fun g hb ho => ?_, fun g hb => standbyClaim_section hb w⟩⟩
  · exact (resumeTrain_hold hm ha).trans (startDwell_runs hd)
  · exact (resumeTrain_hold hm ha).trans startDwell_zero
  · exact h.elim resumeTrain_barred fun ⟨hp, hh⟩ => resumeTrain_elsewhere hp hh
  all_goals
    rw [standbyClaim_leg hb, ho]
    rfl

end Sys2Proof.Proofs
end

section
/-! SUPPORT. Lapses (R124, R139, R147, R176): the claims a lapse takes back, a section revoked, and the lapse of a port by order or
by the end of its lease. -/

namespace Sys2Proof.Machine

/-! ### The claims of a lapsed port (R124) -/

/-- A LEG claim of a DISPATCH of the port. -/
def Claim.dispatchedBy (p : PortId) (c : Claim) : Bool :=
  match c.body with
  | .leg g => decide (g.origin = .dispatch p)
  | .sectionOf _ => false

/-- A LEG claim of a MOVE of the port. -/
def Claim.movedBy (p : PortId) (c : Claim) : Bool :=
  match c.body with
  | .leg g => decide (g.origin = .move p)
  | .sectionOf _ => false

section
variable (p : PortId) (c : Claim)

theorem orderOf_dispatch : (c.isDispatch && c.isOrderOf p) = c.dispatchedBy p := by
  unfold Claim.isDispatch Claim.isOrderOf Claim.dispatchedBy
  cases c.body with
  | leg g => cases h : g.origin <;> simp [Origin.isOf, h]
  | sectionOf g => rfl

theorem orderOf_move : (!c.isDispatch && c.isOrderOf p) = c.movedBy p := by
  unfold Claim.isDispatch Claim.isOrderOf Claim.movedBy
  cases c.body with
  | leg g => cases h : g.origin <;> simp [Origin.isOf, h]
  | sectionOf g => rfl

end

theorem lapseClaim_leg {c : Claim} {g : LegClaim} (h : c.body = .leg g) (w : Work) :
    lapseClaim c w = postAbort g.train (some g.origin) .lapse (withdrawClaim c w) := by
  unfold lapseClaim
  rw [h]

/-- One DISPATCH claim withdrawn with the cause LAPSE. -/
def lapseDispatch (p : PortId) (w : Work) (c : Claim) : Work :=
  match c.body with
  | .leg g => (withdrawClaim c w).post [0, p] .dispatchAborted (.train g.train) 3
  | .sectionOf _ => w

/-- One MOVE claim withdrawn with the cause LAPSE. -/
def lapseMove (p : PortId) (w : Work) (c : Claim) : Work :=
  match c.body with
  | .leg g => (withdrawClaim c w).post [0, p] .moveAborted (.train g.train) 3
  | .sectionOf _ => w

section
variable {p : PortId} {c : Claim} (w : Work)

theorem lapseClaim_dispatch (h : c.dispatchedBy p = true) : lapseClaim c w = lapseDispatch p w c := by
  unfold Claim.dispatchedBy at h
  unfold lapseDispatch
  split at h
  · next g hb =>
    rw [lapseClaim_leg hb, of_decide_eq_true h]
    rfl
  · cases h

theorem lapseClaim_move (h : c.movedBy p = true) : lapseClaim c w = lapseMove p w c := by
  unfold Claim.movedBy at h
  unfold lapseMove
  split at h
  · next g hb =>
    rw [lapseClaim_leg hb, of_decide_eq_true h]
    rfl
  · cases h

end

/-- The DISPATCH claims, and behind them the MOVE claims. -/
theorem lapseClaims_eq (p : PortId) (w : Work) : lapseClaims p w =
    ((w.claims ++ w.line).filter (Claim.movedBy p)).foldl (lapseMove p)
      (((w.claims ++ w.line).filter (Claim.dispatchedBy p)).foldl (lapseDispatch p) w) := by
  have hd : ((w.claims ++ w.line).filter fun c => c.isDispatch && c.isOrderOf p) =
      (w.claims ++ w.line).filter (Claim.dispatchedBy p) := List.filter_congr fun c _ => orderOf_dispatch p c
  have hm : ((w.claims ++ w.line).filter fun c => !c.isDispatch && c.isOrderOf p) =
      (w.claims ++ w.line).filter (Claim.movedBy p) := List.filter_congr fun c _ => orderOf_move p c
  unfold lapseClaims Track.allClaims
  simp only [List.filter_filter, hd, hm, List.foldl_append]
  rw [List.foldl_ext _ (lapseDispatch p) w fun v c hc => lapseClaim_dispatch v (List.of_mem_filter hc)]
  exact List.foldl_ext _ _ _ fun v c hc => lapseClaim_move v (List.of_mem_filter hc)

/-! ### Folds that change one entry at a time -/

/-- A fold that changes one entry at a time, where an entry changed twice is as if changed once. -/
theorem foldl_entries {ι β : Type} [DecidableEq ι] (entry : Work → ι → β) (op : Work → ι → Work) (f : ι → β → β)
    (hop : ∀ w i j, entry (op w i) j = if i = j then f j (entry w j) else entry w j) (hf : ∀ j x, f j (f j x) = f j x)
    (is : List ι) (w : Work) (j : ι) : entry (is.foldl op w) j = if j ∈ is then f j (entry w j) else entry w j := by
  induction is generalizing w with
  | nil => simp
  | cons i is ih =>
    rw [List.foldl_cons, ih, hop]
    by_cases hij : i = j
    · subst hij
      simp [hf]
    · simp [hij, Ne.symm hij]

/-- A record made LOST has nothing more to drop (R55). -/
theorem toLost_toLost (r : Train) : r.toLost.toLost = r.toLost := by
  unfold Train.toLost Train.mapRide Train.dropTimers
  simp only [Option.map_map, Function.comp_def]

theorem loseEach_keeps {β : Type} (g : Work → β) (hg : ∀ w t f, g (Work.modifyTrain w t f) = g w) (ts : List TrainId) (w : Work) :
    g (ts.foldl (fun w t => w.modifyTrain t Train.toLost) w) = g w := foldl_keeps g _ (fun w t => hg w t _) ts w

theorem loseEach_train (ts : List TrainId) (w : Work) (t : TrainId) :
    (ts.foldl (fun w t => w.modifyTrain t Train.toLost) w).trains[t] =
      if t ∈ ts then (w.trains[t]).toLost else w.trains[t] :=
  foldl_entries (fun w t => w.trains[t]) _ (fun _ => Train.toLost)
    (fun w i j => by
      by_cases h : i = j
      · subst h
        rw [modifyTrain_self, if_pos rfl]
      · rw [modifyTrain_other _ _ (Ne.symm h), if_neg h])
    (fun _ => toLost_toLost) ts w t

/-! ### A section revoked (R147) -/

theorem revokeSwitch_port (e : Env) (n : SwitchId) (r : Switch) : (revokeSwitch e n r).sectionPort = none := by
  unfold revokeSwitch
  split <;> rfl

theorem revokeSwitch_still (e : Env) (n : SwitchId) {r : Switch} (h : r.isMoving = false) :
    revokeSwitch e n r = { r with sectionPort := none } := by
  unfold revokeSwitch
  rw [h]
  rfl

theorem revokeSwitch_revokeSwitch (e : Env) (n : SwitchId) (r : Switch) :
    revokeSwitch e n (revokeSwitch e n r) = revokeSwitch e n r := by
  rw [revokeSwitch_still e n (revokeSwitch_moving e n r), ← revokeSwitch_port e n r]

theorem revokeEach_keeps {β : Type} (g : Work → β) (hg : ∀ w n f, g (Work.modifySwitch w n f) = g w) (e : Env) (ns : List SwitchId)
    (w : Work) : g (ns.foldl (fun w n => w.modifySwitch n (revokeSwitch e n)) w) = g w := foldl_keeps g _ (fun w n => hg w n _) ns w

theorem revokeEach_switch (e : Env) (ns : List SwitchId) (w : Work) (n : SwitchId) :
    (ns.foldl (fun w n => w.modifySwitch n (revokeSwitch e n)) w).switches[n] =
      if n ∈ ns then (w.switches[n]).map (revokeSwitch e n) else w.switches[n] :=
  foldl_entries (fun w n => w.switches[n]) _ (fun n => Option.map (revokeSwitch e n))
    (fun w i j => by
      rw [modifySwitch_switch]
      by_cases h : i = j
      · subst h
        rfl
      · rw [if_neg h, if_neg h])
    (fun n x => by
      rw [Option.map_map]
      exact congrArg (Option.map · x) (funext (revokeSwitch_revokeSwitch e n))) ns w n

theorem mem_manualTrains (w : Track) (p : PortId) (t : TrainId) :
    t ∈ w.manualTrains p ↔ (w.trains[t]).state = .manual ∧ (w.trains[t]).sectionPort = some p := by
  unfold Track.manualTrains trainIds
  simp

/-- The release rule changes no zone's state. -/
theorem applyRelease_zoneState (e : Env) (w : Work) (z : ZoneId) : (applyRelease e w).zoneState z = w.zoneState z := by
  unfold Track.zoneState
  rw [applyRelease_zone, Option.map_map]
  rfl

/-- A held section with its zones, its trains and its switches given up, before the release rule is applied. -/
def givenUp (e : Env) (p : PortId) (h : HeldSection) (w : Work) : Work :=
  (h.switches.foldl (fun w n => w.modifySwitch n (revokeSwitch e n))
    ((w.manualTrains p).foldl (fun w t => w.modifyTrain t Train.toLost) (w.setZones h.zones .unknown))).setSection p .none

theorem revokeSection_eq (e : Env) (p : PortId) (h : HeldSection) (w : Work) : revokeSection e p h w =
    (applyRelease e (givenUp e p h w)).post [0] .sectionRevoked (.port p) (byteOf (w.manualTrains p).length) := rfl

section
variable (e : Env) (p : PortId) (h : HeldSection) (w : Work)

/-- Giving up a section leaves alone whatever no change of a zone, a train, a switch or a section record alters. -/
theorem givenUp_keeps {β : Type} (g : Work → β) (hz : ∀ w z s, g (Work.setZone w z s) = g w)
    (ht : ∀ w t f, g (Work.modifyTrain w t f) = g w) (hn : ∀ w n f, g (Work.modifySwitch w n f) = g w)
    (hs : ∀ w p s, g (Work.setSection w p s) = g w) : g (givenUp e p h w) = g w := by
  unfold givenUp Work.setZones
  rw [hs, revokeEach_keeps g hn, loseEach_keeps g ht, foldl_keeps g _ fun w z => hz w z _]

theorem givenUp_zoneState (z : ZoneId) : (givenUp e p h w).zoneState z =
    if z ∈ h.zones then (w.zoneState z).map fun _ => .unknown else w.zoneState z := by
  have hzones : (givenUp e p h w).zones = (w.setZones h.zones .unknown).zones :=
    (revokeEach_keeps (fun v => v.zones) (fun _ _ _ => rfl) e _ _).trans (loseEach_keeps (fun v => v.zones) (fun _ _ _ => rfl) _ _)
  unfold Track.zoneState
  rw [hzones]
  exact setZones_zoneState w h.zones z .unknown

theorem givenUp_train (t : TrainId) : (givenUp e p h w).trains[t] =
    if (w.trains[t]).state = .manual ∧ (w.trains[t]).sectionPort = some p then (w.trains[t]).toLost else w.trains[t] := by
  have htrains : (givenUp e p h w).trains =
      ((w.manualTrains p).foldl (fun w t => w.modifyTrain t Train.toLost) (w.setZones h.zones .unknown)).trains :=
    revokeEach_keeps (fun v => v.trains) (fun _ _ _ => rfl) e _ _
  rw [htrains, loseEach_train, setZones_trains]
  exact if_congr (mem_manualTrains w.toTrack p t) rfl rfl

theorem givenUp_switch (n : SwitchId) : (givenUp e p h w).switches[n] =
    if n ∈ h.switches then (w.switches[n]).map (revokeSwitch e n) else w.switches[n] := by
  have hswitches : ((w.manualTrains p).foldl (fun w t => w.modifyTrain t Train.toLost) (w.setZones h.zones .unknown)).switches =
      w.switches :=
    (loseEach_keeps (fun v => v.switches) (fun _ _ _ => rfl) _ _).trans
      (foldl_keeps (fun v => v.switches) (fun w z => w.setZone z _) (fun _ _ => rfl) h.zones w)
  rw [← hswitches]
  exact revokeEach_switch e h.switches _ n

theorem revokeSection_section : (revokeSection e p h w).sections[p] = .none := by
  rw [revokeSection_eq, Work.post_sections, applyRelease_sections]
  unfold givenUp Work.setSection
  rw [vector_get_set, if_pos rfl]

theorem revokeSection_zoneState (z : ZoneId) : (revokeSection e p h w).zoneState z =
    if z ∈ h.zones then (w.zoneState z).map fun _ => .unknown else w.zoneState z :=
  (applyRelease_zoneState e _ z).trans (givenUp_zoneState e p h w z)

/-- The MANUAL trains of the section are LOST: the release rule clears none of them. -/
theorem revokeSection_manual {t : TrainId} (hm : (w.trains[t]).state = .manual) (hp : (w.trains[t]).sectionPort = some p) :
    (revokeSection e p h w).trains[t] = (w.trains[t]).toLost := by
  have hlost : (givenUp e p h w).trains[t] = (w.trains[t]).toLost := (givenUp_train e p h w t).trans (if_pos ⟨hm, hp⟩)
  rw [revokeSection_eq, Work.post_trains, applyRelease_stays e fun z ho => ?_, hlost]
  obtain ⟨hs, -, -⟩ := hlost ▸ ho
  exact hs.elim nofun nofun

theorem revokeSection_switch (n : SwitchId) : (revokeSection e p h w).switches[n] =
    if n ∈ h.switches then (w.switches[n]).map (revokeSwitch e n) else w.switches[n] := by
  rw [revokeSection_eq, Work.post_switches, applyRelease_switches]
  exact givenUp_switch e p h w n

theorem revokeSection_claims : (revokeSection e p h w).claims = w.claims ∧ (revokeSection e p h w).line = w.line := by
  rw [revokeSection_eq, Work.post_claims, Work.post_line, applyRelease_claims, applyRelease_line]
  exact ⟨givenUp_keeps e p h w (fun v => v.claims) (fun _ _ _ => rfl) (fun _ _ _ => rfl) (fun _ _ _ => rfl) fun _ _ _ => rfl,
    givenUp_keeps e p h w (fun v => v.line) (fun _ _ _ => rfl) (fun _ _ _ => rfl) (fun _ _ _ => rfl) fun _ _ _ => rfl⟩

theorem revokeSection_posts : (revokeSection e p h w).posts = w.posts ++
    [{ note := { name := .sectionRevoked, subject := .port p, detail1 := byteOf (w.manualTrains p).length, detail2 := 0xFF }
       named := [0] }] := by
  have hposts : (applyRelease e (givenUp e p h w)).posts = w.posts := by
    rw [applyRelease_posts]
    exact givenUp_keeps e p h w (fun v => v.posts) (fun _ _ _ => rfl) (fun _ _ _ => rfl) (fun _ _ _ => rfl) fun _ _ _ => rfl
  rw [revokeSection_eq, ← hposts]
  rfl

end

/-! ### What a lapse does with the port's section (R139, R147) -/

section
variable {e : Env} {p : PortId} {w : Work}

theorem lapseSection_none (h : w.sections[p] = .none) : lapseSection e p w = w := by
  unfold lapseSection
  rw [h]

theorem lapseSection_claimed (h : w.sections[p] = .claimed) : lapseSection e p w =
    ((withdrawAll (fun c => c.isSectionOf p) w).setSection p .none).post [0, p] .sectionWithdrawn (.port p) 3 := by
  unfold lapseSection
  rw [h]
  rfl

theorem lapseSection_held {y : HeldSection} (h : w.sections[p] = .held y) : lapseSection e p w = revokeSection e p y w := by
  unfold lapseSection
  rw [h]

end

/-! ### The lapse of a port (R175, R176) -/

section
variable {p : PortId} {s : State}

theorem performForceLapse_role {n : Nat} (h : p ≠ 0) : performForceLapse p n s = refuse .role s := if_pos h

theorem performForceLapse_argument {n : Nat} (h : p = 0) (hn : n = 0 ∨ 4 ≤ n) : performForceLapse p n s = refuse .argument s := by
  unfold performForceLapse
  rw [if_neg (not_not.2 h), masterPortArg_none hn]

theorem performForceLapse_lapses {q : PortId} (h : p = 0) (hq : q ≠ 0) :
    performForceLapse p q.val s = doneWith (lapse q .forced s) := by
  unfold performForceLapse
  rw [if_neg (not_not.2 h), masterPortArg_some.2 ⟨rfl, hq⟩]

theorem leaseEnds_stopped (h : (s.ports[p]).leaseRemaining = none) : leaseEnds p s = s := by
  unfold leaseEnds
  rw [h]

theorem leaseEnds_running (h : (s.ports[p]).leaseRemaining ≠ none) : leaseEnds p s = lapse p .expiry s := by
  unfold leaseEnds
  split
  · rfl
  · next hn => exact absurd hn h

end

end Sys2Proof.Machine

namespace Sys2Proof.Proofs
open Sys2Proof.Machine

/-- Settles O14: the order and the expiry by what each examines before the lapse, the claims by their origin, the section by its
record, and a revocation field by field. -/
theorem lapse : Obligations.Lapse := by
  refine ⟨fun s p q n => ?_, lapseClaims_eq, fun e p w => ⟨lapseSection_none, lapseSection_claimed, fun y hy => ?_⟩⟩
  · refine ⟨fun h hp => idle_refuses h rfl rfl (performForceLapse_role hp),
      fun h hp hn => idle_refuses h rfl rfl (performForceLapse_argument hp hn), fun h hp hq hn => ?_,
      fun h => congrArg Host.Outcome.next (leaseEnds_stopped h), fun h => congrArg Host.Outcome.next (leaseEnds_running h)⟩
    subst hn
    exact idle_answers h rfl rfl (performForceLapse_lapses hp hq)
  · obtain ⟨hclaims, hline⟩ := revokeSection_claims e p y w
    rw [lapseSection_held hy]
    refine ⟨revokeSection_section e p y w, fun z hz hd => ?_, fun z hz => ?_, fun t hm hp => revokeSection_manual e p y w hm hp,
      fun n hn r hr => ?_, fun n hn => ?_, hclaims, hline, revokeSection_posts e p y w⟩
    · rw [revokeSection_zoneState, if_pos hz]
      exact map_unknown hd
    · rw [revokeSection_zoneState, if_neg hz]
    · rw [revokeSection_switch, if_pos hn, hr]
      rfl
    · rw [revokeSection_switch, if_neg hn]

end Sys2Proof.Proofs
end

section
/-! SUPPORT. Every step keeps the drives with the moves, and apart from them the mode with the ESTOP lines and the commit state (R125,
R134, R136, R149, R156, Table 10-1): neither of the two agreements needs the other. -/

namespace Sys2Proof.Machine

/-! ### Changes of mode outside ESTOPPED -/

/-- One track comes of another by operations that set no mode and by changes of mode outside UNCONFIGURED and ESTOPPED. -/
inductive ModePath : Work → Work → Prop
  | steady {a b : Work} (h : ∀ R, Steady R → R a b) : ModePath a b
  | change (a : Work) (m : Mode) (ha : a.mode ≠ .unconfigured ∧ a.mode ≠ .estopped) (hm : m ≠ .unconfigured ∧ m ≠ .estopped) :
      ModePath a { a with mode := m }
  | trans {a b c : Work} (h : ModePath a b) (k : ModePath b c) : ModePath a c

theorem HaltPath.modePath {a b : Work} (h : HaltPath a b) : ModePath a b := by
  induction h with
  | steady h => exact .steady h
  | halt a m => exact .change a .halted (by rcases m with m | m <;> simp [m]) (by simp)
  | trans _ _ ih1 ih2 => exact .trans ih1 ih2

/-- Every event but the end of the clear time is such a path. -/
theorem event_modePath {s : State} {f : Env → Work → Work} (hf : Event s f) : ModePath s.work (f s.env s.work) ∨ f = clearEnds := by
  rcases event_haltPath hf with h | h | ⟨hm, rfl | rfl | rfl⟩
  · exact .inl h.modePath
  · exact .inr h
  · exact .inl (.trans (.change s.work .operating hm (by simp)) (.steady fun _ h => h.enterOperating s.env s.work))
  · exact .inl (.trans (.change s.work .standby hm (by simp)) (.steady fun _ h => h.enterStandby s.env s.work))
  · exact .inl (.trans (.change s.work .halted hm (by simp)) (.steady fun _ h => h.enterHalted s.env s.work))

/-- The track with the stop lifted, before the event closes (R158). -/
def lifted (e : Env) (w : Work) : Work :=
  { w with mode := if e.layout.committed then .halted else .unconfigured, estopClear := none }

theorem lifted_running (e : Env) (w : Work) : (lifted e w).mode ≠ .estopped := by
  unfold lifted
  dsimp only
  split <;> simp

/-- The end of the clear time lifts the stop in ESTOPPED while it runs, and changes nothing otherwise (R158). -/
theorem clearEnds_eq (e : Env) (w : Work) : clearEnds e w =
    if w.mode = .estopped ∧ w.estopClear ≠ none then closeEvent e (postMode w.mode .estopClear (lifted e w)) else w := by
  unfold clearEnds
  split
  · next n hm hc => exact (if_pos ⟨hm, by simp [hc]⟩).symm
  · next h =>
    refine (if_neg ?_).symm
    rintro ⟨hm, hc⟩
    obtain ⟨n, hn⟩ := Option.ne_none_iff_exists'.1 hc
    exact h n hm hn

theorem moves_lift (e : Env) (m : Mode) (w : Work) : Moves (lifted e w) (closeEvent e (postMode m .estopClear (lifted e w))) :=
  moves_steady.trans (moves_steady.postMode m _ _) (moves_steady.closeEvent e _)

/-! ### Drives and moves (R125, R134, R136) -/

/-- Drives follow the moves, no switch moves in ESTOPPED, and with commit state `c` an uncommitted layout has no switch record. -/
structure Track.Driven (c : Bool) (w : Track) : Prop where
  drives : w.drivesFollow
  still : w.mode = .estopped → w.noneMoving
  none : c = false → ∀ n : SwitchId, w.switches[n] = none

theorem switchesSafe_iff (s : State) : s.switchesSafe ↔ s.track.Driven s.layout.committed :=
  ⟨fun ⟨hd, hs, hn⟩ => ⟨hd, hs, hn⟩, fun ⟨hd, hs, hn⟩ => ⟨hd, hs, hn⟩⟩

section
variable {c : Bool}

theorem Moves.driven {a b : Work} (h : Moves a b) (d : a.Driven c) : b.Driven c where
  drives := h.drives d.drives
  still e := h.still (h.mode.symm.trans e) (d.still (h.mode.symm.trans e))
  none e n := h.absent n (d.none e n)

/-- The mode and the clear time change, to a mode outside ESTOPPED. -/
theorem Track.Driven.setMode {w : Work} (d : w.Driven c) {m : Mode} (hm : m ≠ .estopped) (x : Option Nat) :
    ({ w with mode := m, estopClear := x } : Work).Driven c :=
  ⟨d.drives, fun h => absurd h hm, d.none⟩

theorem ModePath.driven {a b : Work} (h : ModePath a b) (d : a.Driven c) : b.Driven c := by
  induction h with
  | steady h => exact (h _ moves_steady).driven d
  | change a m _ hm => exact d.setMode hm.2 a.estopClear
  | trans _ _ ih1 ih2 => exact ih2 (ih1 d)

theorem clearEnds_driven (e : Env) {w : Work} (d : w.Driven c) : (clearEnds e w).Driven c := by
  rw [clearEnds_eq]
  split
  · exact (moves_lift e w.mode w).driven (d.setMode (lifted_running e w) none)
  · exact d

theorem event_driven {s : State} {f : Env → Work → Work} (hf : Event s f) (d : s.track.Driven c) : (f s.env s.work).Driven c := by
  rcases event_modePath hf with h | rfl
  · exact h.driven d
  · exact clearEnds_driven s.env (w := s.work) d

end

/-- The entry into ESTOPPED leaves no move in progress: with a committed layout every move is abandoned, and an uncommitted one has
no switch (R134, R136, R157). -/
theorem enterEstopped_driven (e : Env) (a b : Bool) {w : Work} (d : w.Driven e.layout.committed) :
    (enterEstopped e a b w).Driven e.layout.committed := by
  cases hc : e.layout.committed with
  | false =>
    rw [hc] at d
    rw [enterEstopped_uncommitted hc]
    exact ⟨d.drives, fun _ n r hr => (nomatch (d.none rfl n).symm.trans hr), d.none⟩
  | true =>
    rw [enterEstopped_committed hc]
    have hm : Moves { w with mode := .estopped } (abandoned e w) :=
      moves_steady.trans (moves_steady.rideHalt e .estopped w) (moves_steady.abandonAll e _)
    have hstill : (abandoned e w).Driven true := ⟨hm.drives d.drives, fun _ => abandonAll_still e _, nofun⟩
    exact (moves_steady.trans (moves_steady.sections (abandoned e w) _)
      (moves_steady.trans (moves_steady.applyRelease e _) (moves_steady.postMode _ _ _))).driven hstill

theorem estopChange_driven (a : Bool) (e : Env) {w : Work} (d : w.Driven e.layout.committed) :
    (estopChange a e w).Driven e.layout.committed := by
  unfold estopChange
  split
  · split
    · exact ⟨d.drives, d.still, d.none⟩
    · exact (moves_steady.closeEvent e _).driven (enterEstopped_driven e _ _ d)
  · split
    · exact ⟨d.drives, d.still, d.none⟩
    · exact d

/-- Every switch record is made afresh or re-read at a start or a COMMIT (R126, R136). -/
theorem driven_of_fresh {c : Bool} {w : Track} (hn : c = false → ∀ n : SwitchId, w.switches[n] = none)
    (hf : ∀ (n : SwitchId) (r : Switch), w.switches[n] = some r → ∃ e, r = freshSwitch e n) : w.Driven c where
  drives n r hr := by
    obtain ⟨e, rfl⟩ := hf n r hr
    exact (freshSwitch_agrees e n).1
  still _ n r hr := by
    obtain ⟨e, rfl⟩ := hf n r hr
    exact (freshSwitch_agrees e n).2
  none := hn

theorem warmStart_switch (s : State) (n : SwitchId) :
    (warmStart s).track.switches[n] = (s.track.switches[n]).map fun _ => freshSwitch s.toldEnv n := vector_get_ofFn _ n

theorem warmStart_driven {s : State} (d : s.track.Driven s.layout.committed) : (warmStart s).track.Driven s.layout.committed := by
  refine driven_of_fresh (fun hc n => ?_) fun n r hr => ?_
  · rw [warmStart_switch, d.none hc n]
    rfl
  · obtain ⟨_, _, rfl⟩ := Option.map_eq_some_iff.1 ((warmStart_switch s n).symm.trans hr)
    exact ⟨_, rfl⟩

theorem commitState_driven (s : State) : (commitState s).track.Driven true := by
  refine driven_of_fresh nofun fun n r hr => ?_
  obtain ⟨_, _, rfl⟩ := Option.map_eq_some_iff.1 ((commitState_switch s n).symm.trans hr)
  exact ⟨_, rfl⟩

theorem uncommitState_driven (s : State) : (uncommitState s).track.Driven false :=
  driven_of_fresh (fun _ => uncommitState_switch s) fun n _ hr => nomatch (uncommitState_switch s n).symm.trans hr

theorem tick_driven {c : Bool} {w : Track} (d : w.Driven c) : w.tick.Driven c := by
  have hsw : ∀ n : SwitchId, w.tick.switches[n] = (w.switches[n]).map Switch.tick := fun n => vector_get_map _ _ n
  refine ⟨fun n r hr => ?_, fun hm n r hr => ?_, fun hc n => ?_⟩
  · obtain ⟨x, hx, rfl⟩ := Option.map_eq_some_iff.1 ((hsw n).symm.trans hr)
    exact switch_tick_agrees x (d.drives n x hx)
  · obtain ⟨x, hx, rfl⟩ := Option.map_eq_some_iff.1 ((hsw n).symm.trans hr)
    exact (switch_tick_moving x).trans (d.still hm n x hx)
  · rw [hsw, d.none hc n]
    rfl

theorem driven_rules : StepRules fun s => s.track.Driven s.layout.committed where
  frame hl _ ht d := by rw [hl, ht]; exact d
  cold _ _ := (switchesSafe_iff _).1 reset_switchesSafe
  warm _ d := warmStart_driven d
  load s l hc hlc _ d := by
    rw [hc] at d
    show s.track.Driven l.committed
    rw [hlc]
    exact d
  commit s _ _ _ _ := commitState_driven s
  uncommit s _ _ _ _ _ := uncommitState_driven s
  input _ _ _ _ d := d
  estop s k a _ d := estopChange_driven a (s.setInput (.estop k) a).env (w := (s.setInput (.estop k) a).work) d
  tick s _ d := by
    rw [tick_layout, tick_track]
    exact tick_driven d
  event _ _ hf d := event_driven hf d

/-! ### Mode, ESTOP lines and commit state (R149, R156, R158, Table 10-1) -/

/-- The mode and the clear time agree with the commit state `c` and with the ESTOP lines as last told. -/
structure Track.ModeHeld (c : Bool) (told : EstopId → Bool) (w : Track) : Prop where
  stops : ∀ k, told k = true → w.mode = .estopped
  clear : w.mode ≠ .estopped → w.estopClear = none
  quiet : w.estopClear ≠ none → ∀ k, told k = false
  modes : c = false → w.mode = .unconfigured ∨ w.mode = .estopped
  unconfigured : w.mode = .unconfigured → c = false

/-- The ESTOP lines of a state as last told. -/
def State.toldStops (s : State) (k : EstopId) : Bool := inputSeen s.layout s.inputs (.estop k)

/-- The agreement of the mode, told of layout, inputs and track. -/
def State.modeHeld (s : State) : Prop := s.track.ModeHeld s.layout.committed s.toldStops

theorem modeHeld_iff (s : State) : s.modeHeld ↔ s.estopAgrees ∧ s.modeAgrees :=
  ⟨fun ⟨h1, h2, h3, h4, h5⟩ => ⟨⟨h1, h2, h3⟩, h4, h5⟩, fun ⟨⟨h1, h2, h3⟩, h4, h5⟩ => ⟨h1, h2, h3, h4, h5⟩⟩

/-- Two tracks have the same mode and the same clear time. -/
def sameMode (v w : Track) : Prop := v.mode = w.mode ∧ v.estopClear = w.estopClear

section
variable {c : Bool} {told : EstopId → Bool}

theorem Track.ModeHeld.congr {v w : Track} (h : sameMode v w) (g : w.ModeHeld c told) : v.ModeHeld c told := by
  obtain ⟨hm, hc⟩ := h
  exact ⟨fun k hk => hm.trans (g.stops k hk), fun h => hc.trans (g.clear (hm ▸ h)), fun h => g.quiet (hc ▸ h),
    fun h => hm ▸ g.modes h, fun h => g.unconfigured (hm.symm.trans h)⟩

theorem Moves.sameMode {a b : Work} (h : Moves a b) : sameMode b.toTrack a.toTrack := ⟨h.mode, h.clear⟩

theorem ModePath.modeHeld {a b : Work} (h : ModePath a b) (g : a.ModeHeld c told) : b.ModeHeld c told := by
  induction h with
  | steady h => exact g.congr (h _ moves_steady).sameMode
  | change a m ha hm =>
    exact
      { stops := fun k hk => absurd (g.stops k hk) ha.2, clear := fun _ => g.clear ha.2, quiet := g.quiet
        modes := fun hc => ((g.modes hc).elim ha.1 ha.2).elim, unconfigured := fun h => absurd h hm.1 }
  | trans _ _ ih1 ih2 => exact ih2 (ih1 g)

/-! ### The mode apart from the switches

A track without switch records has its drives and moves safe, so what keeps drives, moves and mode safe together keeps its mode.
The starts, COMMIT, UNCOMMIT and the events of the ESTOP lines make the same mode and clear time of it as of the track with its
switches. -/

/-- The track without its switch records. -/
def Track.unswitched (w : Track) : Track := { w with switches := Vector.replicate 4 none }

theorem Track.ModeHeld.guarded {w : Track} (g : w.ModeHeld c told) : w.unswitched.Guarded c told :=
  have hn : ∀ n : SwitchId, w.unswitched.switches[n] = none := fun n => vector_get_replicate none n
  { drives := fun n _ hr => (nomatch (hn n).symm.trans hr), still := fun _ n _ hr => (nomatch (hn n).symm.trans hr), none := fun _ => hn
    stops := g.stops, clear := g.clear, quiet := g.quiet, modes := g.modes, unconfigured := g.unconfigured }

theorem Track.Guarded.modeHeld {w : Track} (g : w.Guarded c told) : w.ModeHeld c told :=
  ⟨g.stops, g.clear, g.quiet, g.modes, g.unconfigured⟩

/-- The end of the clear time reads mode and clear time alone to set them. -/
theorem clearEnds_sameMode (e : Env) {v w : Work} (h : sameMode v.toTrack w.toTrack) :
    sameMode (clearEnds e v).toTrack (clearEnds e w).toTrack := by
  obtain ⟨hm, hc⟩ := h
  rw [clearEnds_eq, clearEnds_eq, hm, hc]
  split
  · obtain ⟨hvm, hvc⟩ := (moves_lift e w.mode v).sameMode
    obtain ⟨hwm, hwc⟩ := (moves_lift e w.mode w).sameMode
    exact ⟨hvm.trans hwm.symm, hvc.trans hwc.symm⟩
  · exact ⟨hm, hc⟩

theorem estopChange_mode (a : Bool) (e : Env) (w : Work) : (estopChange a e w).mode = if a then .estopped else w.mode := by
  unfold estopChange
  cases a with
  | true =>
    rw [if_pos rfl, if_pos rfl]
    split
    · next hm => exact hm
    · exact (closeEvent_mode e _).trans (enterEstopped_mode e _ _ w)
  | false =>
    rw [if_neg Bool.false_ne_true, if_neg Bool.false_ne_true]
    split <;> rfl

theorem estopChange_clear (a : Bool) (e : Env) (w : Work) : (estopChange a e w).estopClear =
    if a then if w.mode = .estopped then none else w.estopClear
    else if w.mode = .estopped ∧ e.estop 0 = false ∧ e.estop 1 = false then some Config.estopClearTime else w.estopClear := by
  unfold estopChange
  cases a with
  | true =>
    rw [if_pos rfl, if_pos rfl]
    split
    · rfl
    · exact (moves_steady.trans (moves_steady.enterEstopped e w _ _) (moves_steady.closeEvent e _)).clear
  | false =>
    rw [if_neg Bool.false_ne_true, if_neg Bool.false_ne_true]
    split <;> rfl

/-- The change of an ESTOP line reads mode and clear time alone to set them. -/
theorem estopChange_sameMode (a : Bool) (e : Env) {v w : Work} (h : sameMode v.toTrack w.toTrack) :
    sameMode (estopChange a e v).toTrack (estopChange a e w).toTrack := by
  obtain ⟨hm, hc⟩ := h
  unfold sameMode
  rw [estopChange_mode, estopChange_mode, estopChange_clear, estopChange_clear, hm, hc]
  exact ⟨rfl, rfl⟩

end

/-- The state without its switch records. -/
def State.unswitched (s : State) : State := { s with track := s.track.unswitched }

/-- Two states with the same mode and clear time, the same commit state and the same told of the ESTOP lines. -/
theorem modeHeld_congr {s t : State} (hc : t.layout.committed = s.layout.committed) (ht : t.toldStops = s.toldStops)
    (hm : sameMode t.track s.track) (g : s.modeHeld) : t.modeHeld := by
  unfold State.modeHeld
  rw [hc, ht]
  exact Track.ModeHeld.congr hm g

theorem event_modeHeld {s : State} {f : Env → Work → Work} (hf : Event s f) (g : s.modeHeld) : (s.run f).modeHeld := by
  rcases event_modePath hf with h | rfl
  · exact h.modeHeld g
  · have hwork : sameMode s.work.toTrack s.unswitched.work.toTrack := ⟨rfl, rfl⟩
    have hsame := clearEnds_sameMode s.env hwork
    exact (clearEnds_guarded s.env (w := s.unswitched.work) g.guarded).modeHeld.congr hsame

theorem estopChange_modeHeld {s : State} {k : EstopId} {a : Bool} (hk : inputSeen s.layout s.inputs (.estop k) ≠ a)
    (g : s.modeHeld) : ((s.setInput (.estop k) a).run (estopChange a)).modeHeld := by
  have hwork : sameMode (s.setInput (.estop k) a).work.toTrack (s.unswitched.setInput (.estop k) a).work.toTrack := ⟨rfl, rfl⟩
  have hsame := estopChange_sameMode a (s.setInput (.estop k) a).env hwork
  exact (estopChange_guarded (s := s.unswitched) rfl hk g.guarded).modeHeld.congr hsame

theorem setInput_toldStops {s : State} {i : InputId} {a : Bool} (hi : ∀ k, i = .estop k → inputSeen s.layout s.inputs i = a) :
    (s.setInput i a).toldStops = s.toldStops := by
  funext k
  refine (inputSeen_set s i a k).trans ?_
  split
  · next h =>
    subst h
    exact (hi k rfl).symm
  · rfl

/-- With no change of an input waiting for delivery, a sample tells nothing of the ESTOP lines (R38, R40). -/
theorem tick_toldStops {s : State} (hd : dueEvents s = []) : s.tick.toldStops = s.toldStops := by
  funext k
  unfold State.toldStops
  rw [tick_layout, tick_inputs]
  exact inputSeen_sample s.layout s.inputs k (due_false hd _ (estop_mem_allInputs k))

/-- One millisecond runs the clear time down and keeps the mode (R158). -/
theorem Track.ModeHeld.tick {c : Bool} {told : EstopId → Bool} {w : Track} (g : w.ModeHeld c told) : w.tick.ModeHeld c told :=
  have hclear : w.tick.estopClear = none ↔ w.estopClear = none := Option.map_eq_none_iff
  { stops := g.stops, clear := fun h => hclear.2 (g.clear h), quiet := fun h => g.quiet fun hn => h (hclear.2 hn), modes := g.modes
    unconfigured := g.unconfigured }

theorem modeHeld_rules : StepRules State.modeHeld where
  frame hl hi ht g := modeHeld_congr (by rw [hl]) (by unfold State.toldStops; rw [hl, hi]) (by rw [ht]; exact ⟨rfl, rfl⟩) g
  cold _ _ := (modeHeld_iff _).2 ⟨⟨fun _ _ => rfl, fun h => absurd rfl h, fun h => absurd rfl h⟩, reset_modeAgrees⟩
  warm s g := modeHeld_congr (s := warmStart s.unswitched) rfl rfl ⟨rfl, rfl⟩
    (warmStart_guarded (s := s.unswitched) g.guarded).modeHeld
  load s _ hc hlc _ g := modeHeld_congr (s := s) (hlc.trans hc.symm) rfl ⟨rfl, rfl⟩ g
  commit s _ hm _ g := modeHeld_congr (s := commitState s.unswitched) rfl rfl ⟨rfl, rfl⟩
    (commitState_guarded (s := s.unswitched) hm g.guarded).modeHeld
  uncommit s _ hm _ _ g := modeHeld_congr (s := uncommitState s.unswitched) rfl rfl ⟨rfl, rfl⟩
    (uncommitState_guarded (s := s.unswitched) (by rw [show s.unswitched.track.mode = .standby from hm]; nofun) g.guarded).modeHeld
  input s i a hi g := modeHeld_congr (s := s) rfl (setInput_toldStops hi) ⟨rfl, rfl⟩ g
  estop _ _ _ hk g := estopChange_modeHeld hk g
  tick s hd g := by
    unfold State.modeHeld
    rw [tick_layout, tick_toldStops hd, tick_track]
    exact g.tick
  event _ _ hf g := event_modeHeld hf g

end Sys2Proof.Machine

namespace Sys2Proof.Proofs
open Sys2Proof.Machine

/-- Settles O57: what a step can do, and that each of it keeps the drives with the moves whatever the mode agrees with, and the mode
with the ESTOP lines and the commit state whatever the switches do. -/
theorem drivesAndModeStaySafe : Obligations.DrivesAndModeStaySafe := by
  refine ⟨fun s t hs ht => (switchesSafe_iff t).2 (driven_rules.kept s t ((switchesSafe_iff s).1 hs) ht), fun s t hs ht => ?_⟩
  exact (modeHeld_iff t).1 (modeHeld_rules.kept s t ((modeHeld_iff s).2 hs) ht)

end Sys2Proof.Proofs
end

section
/-! SUPPORT. The return of a section (R144 to R146): what it makes of one train, by where the train is validly declared, and of one
switch (R133). -/

namespace Sys2Proof.Machine

/-! ### The zones a train is declared in -/

section
variable {js : List (ZoneId × Judged)} {t : TrainId}

theorem validZone_isSome (js : List (ZoneId × Judged)) (t : TrainId) :
    (validZone js t).isSome = js.any fun q => decide (q.2 = .occupied t) := by
  unfold validZone
  rw [Option.isSome_map, List.isSome_find?]

/-- The one zone a train is validly declared in. -/
theorem validZone_of_mem {z : ZoneId} (hz : (z, .occupied t) ∈ js) (hu : ∀ y, (y, .occupied t) ∈ js → y = z) :
    validZone js t = some z := by
  have hs : (validZone js t).isSome = true := by
    rw [validZone_isSome]
    exact List.any_eq_true.2 ⟨_, hz, decide_eq_true rfl⟩
  obtain ⟨y, hy⟩ := Option.isSome_iff_exists.1 hs
  obtain ⟨⟨x, j⟩, hq, rfl⟩ := Option.map_eq_some_iff.1 hy
  have hj := List.find?_some hq
  rw [decide_eq_true_eq] at hj
  have hx := List.mem_of_find?_eq_some hq
  rw [show j = .occupied t from hj] at hx
  rw [hy, hu x hx]

theorem validZone_of_not_mem (h : ∀ z, (z, .occupied t) ∉ js) : validZone js t = none := by
  refine Option.map_eq_none_iff.2 (List.find?_eq_none.2 fun ⟨z, j⟩ hq hj => h z ?_)
  rw [← of_decide_eq_true hj]
  exact hq

end

/-- A train is declared in some zone of a return. -/
theorem anyDeclared_iff (ds : List Declaration) (t : TrainId) :
    (ds.any fun d => decide (d.2 = some t)) = true ↔ ∃ z, (z, some t) ∈ ds := by
  simp

/-! ### One train (R145) -/

section
variable (e : Env)

theorem returnedTrain_standing {r : Train} {z : ZoneId} (hm : r.state = .manual) (hz : (e.cursorStep r).map (·.zone) = some z) :
    returnedTrain e r z = { r with
      state := .standing, footprint := [z], sectionPort := none, ride := r.ride.map fun d => { d with stalled := false } } := by
  unfold returnedTrain
  rw [hm]
  exact if_pos hz

theorem returnedTrain_stored {r : Train} {z : ZoneId} (hm : r.state = .manual) (hz : (e.cursorStep r).map (·.zone) ≠ some z) :
    returnedTrain e r z = { r with state := .stored, footprint := [z], sectionPort := none, ride := none } := by
  unfold returnedTrain
  rw [hm]
  exact if_neg hz

theorem returnedTrain_absent {r : Train} {z : ZoneId} (hm : r.state = .absent) :
    returnedTrain e r z = { Train.gone with state := .stored, footprint := [z] } := by
  unfold returnedTrain
  rw [hm]

variable {e} {p : PortId} {ds : List Declaration} {js : List (ZoneId × Judged)} {t : TrainId} {w : Work}

/-- A train validly declared in one zone. -/
theorem returnTrain_declared {z : ZoneId} (hv : validZone js t = some z) :
    returnTrain e p ds js t w = w.setTrain t (returnedTrain e w.trains[t] z) := by
  unfold returnTrain
  rw [hv]
  rfl

/-- A train validly declared nowhere. -/
theorem returnTrain_undeclared (hv : validZone js t = none) : returnTrain e p ds js t w =
    if (w.trains[t]).state = .manual ∧ (w.trains[t]).sectionPort = some p then
      if ds.any fun d => decide (d.2 = some t) then w.setTrain t (w.trains[t]).toLost
      else (w.setTrain t Train.gone).post [0, p] .trainRemoved (.train t)
    else w := by
  unfold returnTrain
  rw [hv]
  rfl

end

/-! ### One switch (R133) -/

theorem leaveSection_serving {r : Switch} {q : Position} {l : Nat} {p : PortId} (h : r.state = .moving q l (.port p)) :
    leaveSection r = { r with state := .moving q l .none, sectionPort := none } := by
  unfold leaveSection
  rw [h]

theorem leaveSection_other {r : Switch} (h : ∀ q l p, r.state ≠ .moving q l (.port p)) :
    leaveSection r = { r with sectionPort := none } := by
  unfold leaveSection
  split
  · next q l p hs => exact absurd hs (h q l p)
  · rfl

/-! ### The order of effects (R146) -/

/-- The trains a return has set STANDING, by the judged zones. -/
theorem returnedStanding_eq (js : List (ZoneId × Judged)) (w : Track) : returnedStanding js w =
    trainIds.filter fun t => (js.any fun q => decide (q.2 = .occupied t)) && decide ((w.trains[t]).state = .standing) := by
  unfold returnedStanding
  simp only [validZone_isSome]

/-- The zones that become UNKNOWN, by any test that finds the unknown outcomes. -/
theorem unknownCount_eq (js : List (ZoneId × Judged)) {f : ZoneId × Judged → Bool} (hunknown : ∀ z x, f (z, .unknown x) = true)
    (hclear : ∀ z, f (z, .clear) = false) (hoccupied : ∀ z t, f (z, .occupied t) = false) :
    unknownCount js = (js.filter f).length := by
  unfold unknownCount
  refine congrArg List.length (List.filter_congr fun ⟨z, j⟩ _ => ?_)
  cases j with
  | clear => exact (hclear z).symm
  | occupied t => exact (hoccupied z t).symm
  | unknown x => exact (hunknown z x).symm

end Sys2Proof.Machine

namespace Sys2Proof.Proofs
open Sys2Proof.Machine

/-- Settles O35: the order of a return's effects, each zone by its judged state, each train by where it is declared, and each switch
by whom its move serves. -/
theorem sectionReturnEffects : Obligations.SectionReturnEffects := by
  refine ⟨fun e p h ds w => ?_, fun p z w => ⟨rfl, fun _ => rfl, fun x => ?_⟩, fun e p ds js t w => ⟨fun z hz hu => ?_, fun hn => ?_⟩,
    fun r => ⟨fun _ _ _ => leaveSection_serving, leaveSection_other⟩⟩
  · dsimp only
    rw [← unknownCount_eq _ (fun _ _ => rfl) (fun _ => rfl) fun _ _ => rfl, ← returnedStanding_eq]
    rfl
  · cases x <;> rfl
  · rw [returnTrain_declared (validZone_of_mem hz hu)]
    exact ⟨fun hm hc => congrArg (w.setTrain t) (returnedTrain_standing e hm hc),
      fun hm hc => congrArg (w.setTrain t) (returnedTrain_stored e hm hc),
      fun hm => congrArg (w.setTrain t) (returnedTrain_absent e hm)⟩
  · rw [returnTrain_undeclared (validZone_of_not_mem hn)]
    refine ⟨fun hm hd => ?_, fun hm hd => ?_, fun hm => if_neg hm⟩
    · rw [if_pos hm, if_pos ((anyDeclared_iff ds t).2 hd)]
      rfl
    · rw [if_pos hm, if_neg fun h => let ⟨z, hz⟩ := (anyDeclared_iff ds t).1 h; hd z hz]
      rfl

end Sys2Proof.Proofs
end

section
/-! SUPPORT. REQUEST_SECTION and CANCEL_SECTION: the list of numbers a command gives, the examination, and the section switches
(R138, R139). -/

namespace Sys2Proof.Machine

/-! ### Lists of numbers -/

section
variable {α β : Type} {f : α → Option β} {xs : List α}

theorem allArgs_cons (x : α) (ys : List β) : allArgs f (x :: xs) = some ys ↔
    ∃ b bs, f x = some b ∧ allArgs f xs = some bs ∧ ys = b :: bs := by
  rw [allArgs]
  cases f x with
  | none => simp
  | some b => cases allArgs f xs <;> simp [@eq_comm _ ys]

/-- A check that inverts `g` on the values with `P` takes a list apart into the values it names. -/
theorem allArgs_iff {g : β → α} {P : β → Prop} (hf : ∀ x y, f x = some y ↔ x = g y ∧ P y) (ys : List β) :
    allArgs f xs = some ys ↔ xs = ys.map g ∧ ∀ y ∈ ys, P y := by
  induction xs generalizing ys with
  | nil => cases ys <;> simp [allArgs]
  | cons x xs ih =>
    simp only [allArgs_cons, hf, ih]
    cases ys with
    | nil => simp
    | cons y ys =>
      simp only [List.cons.injEq, List.map_cons, List.forall_mem_cons]
      constructor
      · rintro ⟨b, bs, ⟨hx, hb⟩, ⟨hxs, hbs⟩, rfl, rfl⟩
        exact ⟨⟨hx, hxs⟩, hb, hbs⟩
      · rintro ⟨⟨hx, hxs⟩, hy, hys⟩
        exact ⟨y, ys, ⟨hx, hy⟩, ⟨hxs, hys⟩, rfl, rfl⟩

/-- A list passes where each of its members does. -/
theorem allArgs_exists (h : ∀ x ∈ xs, ∃ y, f x = some y) : ∃ ys, allArgs f xs = some ys := by
  induction xs with
  | nil => exact ⟨[], rfl⟩
  | cons x xs ih =>
    rw [List.forall_mem_cons] at h
    obtain ⟨⟨y, hy⟩, hxs⟩ := h
    obtain ⟨ys, hys⟩ := ih hxs
    exact ⟨y :: ys, (allArgs_cons x _).2 ⟨y, ys, hy, hys, rfl⟩⟩

theorem distinct_iff [DecidableEq α] (xs : List α) : distinct xs = true ↔ xs.Nodup := by
  induction xs with
  | nil => simp [distinct]
  | cons x xs ih => simp [distinct, ih]

end

/-- A number that names a defined zone. -/
theorem definedZoneArg_iff (l : Layout) (n : Nat) (z : ZoneId) : definedZoneArg l n = some z ↔ n = z.val ∧ l.zones[z] ≠ none := by
  constructor
  · intro h
    unfold definedZoneArg at h
    split at h
    · next y hy =>
      split at h
      · next hd =>
        cases h
        exact ⟨zoneArg_some hy, (defines_iff l z).1 hd⟩
      · cases h
    · cases h
  · rintro ⟨rfl, h⟩
    exact definedZoneArg_some l h

/-! ### REQUEST_SECTION (R138) -/

/-- The numbers of a request name one to eight defined zones, each once, and its wait limit is of 1 to 255 s (R138, step 3). -/
def Layout.requestFits (l : Layout) (zs : List Nat) (wait : Option Nat) : Prop :=
  1 ≤ zs.length ∧ zs.length ≤ 8 ∧ zs.Nodup ∧ (∀ n ∈ zs, ∃ z : ZoneId, n = z.val ∧ l.zones[z] ≠ none) ∧
    ∀ w, wait = some w → 1 ≤ w ∧ w ≤ 255

theorem sectionZones_iff (l : Layout) (zs : List Nat) (ys : List ZoneId) : sectionZones l zs = some ys ↔
    zs = ys.map (·.val) ∧ (∀ y ∈ ys, l.zones[y] ≠ none) ∧ (1 ≤ ys.length ∧ ys.length ≤ 8) ∧ ys.Nodup := by
  rw [← and_assoc, ← allArgs_iff (definedZoneArg_iff l), ← inRange_iff, ← distinct_iff, ← Bool.and_eq_true]
  unfold sectionZones
  cases allArgs (definedZoneArg l) zs with
  | none => simp
  | some xs =>
    simp only [Option.ite_none_right_eq_some, Option.some.injEq]
    exact ⟨fun ⟨h, hx⟩ => ⟨hx, hx ▸ h⟩, fun ⟨hx, h⟩ => ⟨hx ▸ h, hx⟩⟩

theorem sectionWait_iff (wait w : Option Nat) :
    sectionWait wait = some w ↔ (∀ n, wait = some n → 1 ≤ n ∧ n ≤ 255) ∧ w = wait.map (· * 1000) := by
  unfold sectionWait
  cases wait with
  | none => simp [@eq_comm _ w]
  | some n => simp [inRange_iff, @eq_comm _ w]

theorem val_nodup (ys : List ZoneId) : (ys.map (·.val)).Nodup ↔ ys.Nodup := List.nodup_map_iff Fin.val_injective

/-- The zones that a fitting request names pass its examination. -/
theorem sectionZones_of_fits {l : Layout} {ys : List ZoneId} {wait : Option Nat} (h : l.requestFits (ys.map (·.val)) wait) :
    sectionZones l (ys.map (·.val)) = some ys := by
  obtain ⟨hone, height, hnodup, hdefined, -⟩ := h
  rw [List.length_map] at hone height
  refine (sectionZones_iff l _ ys).2 ⟨rfl, fun y hy => ?_, ⟨hone, height⟩, (val_nodup ys).1 hnodup⟩
  obtain ⟨z, hz, hdef⟩ := hdefined y.val (List.mem_map_of_mem hy)
  rwa [Fin.ext hz]

/-- A fitting request names zones. -/
theorem fits_names {l : Layout} {zs : List Nat} {wait : Option Nat} (h : l.requestFits zs wait) :
    ∃ ys : List ZoneId, zs = ys.map (·.val) := by
  obtain ⟨-, -, -, hdefined, -⟩ := h
  obtain ⟨ys, hys⟩ := allArgs_exists fun n hn =>
    (hdefined n hn).imp fun z hz => (definedZoneArg_iff l n z).2 hz
  exact ⟨ys, ((allArgs_iff (definedZoneArg_iff l) ys).1 hys).1⟩

/-- What passes the examination fits. -/
theorem fits_of_checked {l : Layout} {zs : List Nat} {ys : List ZoneId} {wait w : Option Nat} (hz : sectionZones l zs = some ys)
    (hw : sectionWait wait = some w) : l.requestFits zs wait := by
  obtain ⟨rfl, hdefined, ⟨hone, height⟩, hnodup⟩ := (sectionZones_iff l zs ys).1 hz
  refine ⟨by rwa [List.length_map], by rwa [List.length_map], (val_nodup ys).2 hnodup, fun n hn => ?_,
    ((sectionWait_iff wait w).1 hw).1⟩
  obtain ⟨y, hy, rfl⟩ := List.mem_map.1 hn
  exact ⟨y, rfl, hdefined y hy⟩

theorem mem_sectionSwitches (l : Layout) (ys : List ZoneId) (n : SwitchId) : n ∈ sectionSwitches l ys ↔
    ∃ x, l.switches[n] = some x ∧ x.root ∈ ys ∧ x.straight ∈ ys ∧ x.diverge ∈ ys := by
  unfold sectionSwitches
  rw [List.mem_filter, and_iff_right (mem_switchIds n)]
  cases l.switches[n] <;> simp [and_assoc]

section
variable {s : State} {p : PortId} {zs : List Nat} {wait : Option Nat} {mark : Bool}

/-- The claim of a request asks for the section switches of the layout in force. -/
theorem requestSection_run (s : State) (p : PortId) (ys : List ZoneId) (wait : Option Nat) :
    s.run (requestSection p ys wait) = s.run fun e w => closeEval e
      ((arriveClaim (.sectionOf { port := p, zones := ys, switches := sectionSwitches s.layout ys }) wait w).setSection p
        .claimed) := run_congr rfl

theorem tryRequest_argument (h : ¬ s.layout.requestFits zs wait) : tryRequest p mark zs wait s = refuse .argument s := by
  unfold tryRequest
  split
  · next hz hw => exact absurd (fits_of_checked hz hw) h
  · rfl

theorem tryRequest_fits {ys : List ZoneId} (h : s.layout.requestFits (ys.map (·.val)) wait) :
    tryRequest p mark (ys.map (·.val)) wait s =
      if s.track.sections[p] ≠ .none then refuse .state s
      else if mark then refuse .state s
      else (s.run (requestSection p ys (wait.map (· * 1000))), .accepted) := by
  have hw : sectionWait wait = some (wait.map (· * 1000)) := by
    obtain ⟨-, -, -, -, hwait⟩ := h
    exact (sectionWait_iff _ _).2 ⟨hwait, rfl⟩
  unfold tryRequest
  rw [sectionZones_of_fits h, hw]

theorem performRequestSection_mode (hm : p = 0 ∨ (s.ports[p]).role = .transfer) (hc : s.layout.committed = false) :
    performRequestSection p mark zs wait s = refuse .mode s := by
  unfold performRequestSection
  rw [(mayHoldSection_iff s p).2 hm, if_neg (by decide), if_pos hc]

theorem performRequestSection_past (hm : p = 0 ∨ (s.ports[p]).role = .transfer) (hc : s.layout.committed = true) :
    performRequestSection p mark zs wait s = tryRequest p mark zs wait s := by
  unfold performRequestSection
  rw [(mayHoldSection_iff s p).2 hm, if_neg (by decide), hc, if_neg (by decide)]

/-! ### CANCEL_SECTION (R139) -/

theorem performCancelSection_state (hm : p = 0 ∨ (s.ports[p]).role = .transfer) (h : s.track.sections[p] ≠ .claimed) :
    performCancelSection p s = refuse .state s := by
  unfold performCancelSection
  rw [(mayHoldSection_iff s p).2 hm, if_neg (by decide)]
  split
  · next hs => exact absurd hs h
  · rfl
  · rfl

theorem performCancelSection_claimed (hm : p = 0 ∨ (s.ports[p]).role = .transfer) (h : s.track.sections[p] = .claimed) :
    performCancelSection p s = doneWith (s.run (cancelSection p)) := by
  unfold performCancelSection
  rw [(mayHoldSection_iff s p).2 hm, if_neg (by decide), h]

end

end Sys2Proof.Machine

namespace Sys2Proof.Proofs
open Sys2Proof.Machine

/-- Settles O33: role, mode, argument, state and mark in their order, and the section switches by `mem_sectionSwitches`. -/
theorem requestAndCancelSection : Obligations.RequestAndCancelSection := by
  intro s p zs wait hi may fit
  refine ⟨fun hm => ?_, fun hm hc => ?_, fun hm hc hf => ?_, fun hm hc hf hs => ?_, fun hm hc hf => ?_, fun ys hm hc hf hs hz => ?_,
    fun hm => ?_, fun hm hs => ?_, fun hm hs => ?_⟩
  · exact idle_refuses hi rfl rfl (if_pos (mayHoldSection_false hm))
  · exact idle_refuses hi rfl rfl (performRequestSection_mode hm hc)
  · exact idle_refuses hi rfl rfl ((performRequestSection_past hm hc).trans (tryRequest_argument hf))
  · obtain ⟨ys, rfl⟩ := fits_names hf
    exact idle_refuses hi rfl rfl ((performRequestSection_past hm hc).trans ((tryRequest_fits hf).trans (if_pos hs)))
  · obtain ⟨ys, rfl⟩ := fits_names hf
    exact (performRequestSection_past hm hc).trans ((tryRequest_fits hf).trans (ite_self _))
  · subst hz
    refine ⟨sectionSwitches s.layout ys, mem_sectionSwitches s.layout ys, ?_⟩
    rw [← requestSection_run]
    exact idle_answers hi rfl rfl
      ((performRequestSection_past hm hc).trans ((tryRequest_fits hf).trans (if_neg (not_not.2 hs))))
  · exact idle_refuses hi rfl rfl (if_pos (mayHoldSection_false hm))
  · exact idle_refuses hi rfl rfl (performCancelSection_state hm hs)
  · exact idle_answers hi rfl rfl (performCancelSection_claimed hm hs)

end Sys2Proof.Proofs
end

section
/-! SUPPORT. RETURN_SECTION: the examination of its declarations, and the judging of a zone against its declaration (R143, R144). -/

namespace Sys2Proof.Machine

/-! ### Declarations (R143, step 3) -/

/-- A declaration as a command gives it. -/
def declaredAs (x : Declaration) : Nat × Declared :=
  (x.1.val, match x.2 with
    | none => .empty
    | some t => .train t.val)

theorem declarationArg_iff (h : HeldSection) (d : Nat × Declared) (x : Declaration) :
    declarationArg h d = some x ↔ d = declaredAs x ∧ x.1 ∈ h.zones := by
  constructor
  · intro hd
    obtain ⟨n, c⟩ := d
    unfold declarationArg at hd
    split at hd
    · cases hd
    · next z hz =>
      split at hd
      · next hmem =>
        cases zoneArg_some hz
        cases c with
        | empty =>
          cases hd
          exact ⟨rfl, hmem⟩
        | train m =>
          obtain ⟨t, ht, rfl⟩ := Option.map_eq_some_iff.1 hd
          cases trainArg_some ht
          exact ⟨rfl, hmem⟩
      · cases hd
  · rintro ⟨rfl, hmem⟩
    obtain ⟨z, c⟩ := x
    dsimp only at hmem
    cases c with
    | none => simp [declarationArg, declaredAs, hmem]
    | some t => simp [declarationArg, declaredAs, hmem]

theorem declarationArgs_iff (h : HeldSection) (ds : List (Nat × Declared)) (xs : List Declaration) :
    declarationArgs h ds = some xs ↔ ds = xs.map declaredAs ∧ (∀ x ∈ xs, x.1 ∈ h.zones) ∧ (xs.map (·.1)).Nodup := by
  rw [← and_assoc, ← allArgs_iff (declarationArg_iff h), ← distinct_iff]
  unfold declarationArgs
  cases allArgs (declarationArg h) ds with
  | none => simp
  | some ys =>
    simp only [Option.ite_none_right_eq_some, Option.some.injEq]
    exact ⟨fun ⟨h, hx⟩ => ⟨hx, hx ▸ h⟩, fun ⟨hx, h⟩ => ⟨hx ▸ h, hx⟩⟩

/-- A declaration outside the section or of no train, or a zone declared twice, is refused. -/
theorem declarationArgs_none {h : HeldSection} {ds : List (Nat × Declared)}
    (hbad : (∃ d ∈ ds, (∀ z ∈ h.zones, d.1 ≠ z.val) ∨ ∃ n, d.2 = .train n ∧ 8 ≤ n) ∨ ¬ (ds.map (·.1)).Nodup) :
    declarationArgs h ds = none := by
  refine Option.eq_none_iff_forall_ne_some.2 fun xs hxs => ?_
  obtain ⟨rfl, hmem, hnodup⟩ := (declarationArgs_iff h ds xs).1 hxs
  rcases hbad with ⟨d, hd, hout⟩ | htwice
  · obtain ⟨x, hx, rfl⟩ := List.mem_map.1 hd
    rcases hout with hzone | ⟨n, hn, hlarge⟩
    · exact hzone x.1 (hmem x hx) rfl
    · obtain ⟨z, c⟩ := x
      cases c with
      | none => cases hn
      | some t =>
        cases hn
        exact absurd t.isLt (Nat.not_lt.2 hlarge)
  · have hzones : (xs.map declaredAs).map (·.1) = (xs.map (·.1)).map (·.val) := by
      rw [List.map_map, List.map_map]
      rfl
    exact htwice (hzones ▸ (val_nodup _).2 hnodup)

/-! ### RETURN_SECTION (R143) -/

section
variable {s : State} {p : PortId} {ds : List (Nat × Declared)}

theorem performReturnSection_state (hm : p = 0 ∨ (s.ports[p]).role = .transfer) (h : ∀ x, s.track.sections[p] ≠ .held x) :
    performReturnSection p ds s = refuse .state s := by
  unfold performReturnSection
  rw [(mayHoldSection_iff s p).2 hm, if_neg (by decide), heldSection_none h]

section
variable {h : HeldSection} (hm : p = 0 ∨ (s.ports[p]).role = .transfer) (hs : s.track.sections[p] = .held h)
include hm hs

theorem performReturnSection_argument (hargs : declarationArgs h ds = none) : performReturnSection p ds s = refuse .argument s := by
  unfold performReturnSection
  rw [(mayHoldSection_iff s p).2 hm, if_neg (by decide), (heldSection_iff _ _ _).2 hs]
  dsimp only
  rw [hargs]

theorem performReturnSection_returns {xs : List Declaration} (hargs : declarationArgs h ds = some xs) : performReturnSection p ds s =
    (s.run (takeReturn p h xs), .done (returnData (judgeAll s.env s.track p xs h.zones))) := by
  unfold performReturnSection
  rw [(mayHoldSection_iff s p).2 hm, if_neg (by decide), (heldSection_iff _ _ _).2 hs]
  dsimp only
  rw [hargs]

end

end

/-! ### The judging of a zone (R144) -/

section
variable {e : Env} {w : Track} {p : PortId} {ds : List Declaration} {z : ZoneId}

theorem isStoppable_iff (e : Env) (z : ZoneId) : isStoppable e z = true ↔ e.layout.stoppableZone z := isStop_iff e.layout z

theorem trackerBusy_iff (w : Track) (z : ZoneId) : trackerBusy w z = true ↔
    (∃ q l g, w.trackers[z] = some (.passing q l g)) ∨ ∃ g, w.trackers[z] = some (.stuck g) := by
  rw [← Bool.not_eq_false, trackerBusy_false, not_and_or]
  simp only [ne_eq, not_forall, not_not]

theorem declarable_true_iff (w : Track) (p : PortId) (t : TrainId) : declarable w p t = true ↔
    ((w.trains[t]).state = .manual ∧ (w.trains[t]).sectionPort = some p) ∨ (w.trains[t]).state = .absent := by
  unfold declarable
  cases (w.trains[t]).state <;> simp

theorem declaredTwice_iff (ds : List Declaration) (t : TrainId) :
    declaredTwice ds t = true ↔ 2 ≤ (ds.filter fun d => decide (d.2 = some t)).length := decide_eq_true_iff

/-- With no zone declared twice, a zone's declaration is the one found for it. -/
theorem declaration_found {x : Option TrainId} (hn : (ds.map (·.1)).Nodup) (hx : (z, x) ∈ ds) :
    (ds.find? fun d => decide (d.1 = z)).map (·.2) = some x := by
  have hfound : (ds.find? fun d => decide (d.1 = z)).isSome = true := List.find?_isSome.2 ⟨_, hx, decide_eq_true rfl⟩
  obtain ⟨d, hd⟩ := Option.isSome_iff_exists.1 hfound
  have hdz := List.find?_some hd
  rw [decide_eq_true_eq] at hdz
  have hdx : d = (z, x) := List.inj_on_of_nodup_map hn (List.mem_of_find?_eq_some hd) hx hdz
  rw [hd, hdx]
  rfl

theorem judgeZone_undeclared (h : ∀ d ∈ ds, d.1 ≠ z) : judgeZone e w p ds z = .unknown .undeclared := by
  have hnone : (ds.find? fun d => decide (d.1 = z)) = none := List.find?_eq_none.2 fun d hd hz => h d hd (of_decide_eq_true hz)
  unfold judgeZone
  rw [hnone]
  rfl

theorem judgeZone_empty (hn : (ds.map (·.1)).Nodup) (hz : (z, none) ∈ ds) : judgeZone e w p ds z =
    if stopActive e z then .unknown .stopSensor else if trackerBusy w z then .unknown .passage else .clear := by
  unfold judgeZone
  rw [declaration_found hn hz]

theorem judgeZone_train {t : TrainId} (hn : (ds.map (·.1)).Nodup) (hz : (z, some t) ∈ ds) : judgeZone e w p ds z =
    if isStoppable e z = false then .unknown .runZone
    else if declarable w p t = false then .unknown .trainState
    else if declaredTwice ds t then .unknown .duplicate
    else .occupied t := by
  unfold judgeZone
  rw [declaration_found hn hz]

end

end Sys2Proof.Machine

namespace Sys2Proof.Proofs
open Sys2Proof.Machine

/-- Settles O34: role, state and argument in their order, and each zone by its declaration: none, EMPTY, or a train. -/
theorem returnSection : Obligations.ReturnSection := by
  constructor
  · intro s p ds hi may
    refine ⟨fun hm => ?_, fun hm hs => ?_, fun h hm hs => ⟨fun hbad => ?_, fun xs hmem hnodup hds => ?_⟩⟩
    · exact idle_refuses hi rfl rfl (if_pos (mayHoldSection_false hm))
    · exact idle_refuses hi rfl rfl (performReturnSection_state hm hs)
    · exact idle_refuses hi rfl rfl (performReturnSection_argument hm hs (declarationArgs_none hbad))
    · have hargs : declarationArgs h ds = some xs := (declarationArgs_iff h ds xs).2 ⟨hds, hmem, hnodup⟩
      exact idle_answers hi rfl rfl (performReturnSection_returns hm hs hargs)
  · intro e w p ds z stop busy fit twice
    refine ⟨judgeZone_undeclared, fun hn hz => ?_, fun t hn hz => ?_⟩
    · have hstop : stopActive e z = true ↔ stop := stopActive_iff e z
      have hbusy : trackerBusy w z = true ↔ busy := trackerBusy_iff w z
      rw [judgeZone_empty hn hz]
      refine ⟨fun hs => if_pos (hstop.2 hs), fun hs hb => ?_, fun hs hb => ?_⟩
      · rw [if_neg (mt hstop.1 hs), if_pos (hbusy.2 hb)]
      · rw [if_neg (mt hstop.1 hs), if_neg (mt hbusy.1 hb)]
    · have hrun : isStoppable e z = false ↔ ¬ e.layout.stoppableZone z := by rw [← isStoppable_iff, Bool.not_eq_true]
      have hfit : declarable w p t = false ↔ ¬ fit t := by rw [← Bool.not_eq_true, declarable_true_iff]
      have htwice : declaredTwice ds t = true ↔ twice t := declaredTwice_iff ds t
      rw [judgeZone_train hn hz]
      refine ⟨fun hk => if_pos (hrun.2 hk), fun hk hf => ?_, fun hk hf hd => ?_, fun hk hf hd => ?_⟩
      all_goals rw [if_neg fun h => hrun.1 h hk]
      · exact if_pos (hfit.2 hf)
      · rw [if_neg fun h => hfit.1 h hf, if_pos (htwice.2 hd)]
      · rw [if_neg fun h => hfit.1 h hf, if_neg (mt htwice.1 hd)]

end Sys2Proof.Proofs
end

section
/-! SUPPORT. SET_MODE: the modes its parameter names, the conditions of OPERATING and STANDBY, the mode each entry leaves, and the
examination (R159 to R163). -/

namespace Sys2Proof.Machine

/-! ### The mode named (R159, R179) -/

/-- SET_MODE names the modes other than UNCONFIGURED and ESTOPPED, each by its place in Table 10-1. -/
theorem modeArg_iff (n : Nat) (m : Mode) : modeArg n = some m ↔ n = modeNumber m ∧ m ≠ .unconfigured ∧ m ≠ .estopped := by
  constructor
  · intro h
    unfold modeArg at h
    split at h
    all_goals cases h
    all_goals exact ⟨rfl, nofun, nofun⟩
  · rintro ⟨rfl, hu, he⟩
    cases m with
    | unconfigured => exact absurd rfl hu
    | estopped => exact absurd rfl he
    | standby | operating | halted => rfl

theorem modeArg_none {n : Nat} (h : n < 2 ∨ 5 ≤ n) : modeArg n = none := by
  refine Option.eq_none_iff_forall_ne_some.2 fun m hm => ?_
  obtain ⟨rfl, hu, he⟩ := (modeArg_iff n m).1 hm
  cases m with
  | unconfigured => exact hu rfl
  | estopped => exact he rfl
  | standby | operating | halted => exact absurd h (by decide)

theorem modeArg_named {n : Nat} (h2 : 2 ≤ n) (h4 : n ≤ 4) : ∃ m, modeArg n = some m := by
  obtain rfl | rfl | rfl : n = 2 ∨ n = 3 ∨ n = 4 := by omega
  all_goals exact ⟨_, rfl⟩

/-! ### The conditions of the target mode (R161, R162) -/

theorem zoneFaulted_iff (w : Track) (z : ZoneId) : zoneFaulted w z = true ↔ ∃ k, w.zoneState z = some (.fault k) := by
  unfold zoneFaulted
  split
  · next k hk => exact iff_of_true rfl ⟨k, hk⟩
  · next hno => exact iff_of_false Bool.false_ne_true fun ⟨k, hk⟩ => hno k hk

theorem anyTrainIn_iff (w : Track) (x : TrainState) : anyTrainIn w x = true ↔ ∃ t : TrainId, (w.trains[t]).state = x := by
  simp only [anyTrainIn, List.any_eq_true, mem_trainIds, true_and, decide_eq_true_eq]

theorem blocksOperating_iff (w : Track) : blocksOperating w = true ↔
    (∃ z k, w.zoneState z = some (.fault k)) ∨ ∃ t : TrainId, (w.trains[t]).state = .halted := by
  unfold blocksOperating zoneIds
  rw [Bool.or_eq_true, anyTrainIn_iff, List.any_eq_true]
  simp only [List.mem_finRange, true_and, zoneFaulted_iff]

theorem blocksStandby_iff (w : Track) : blocksStandby w = true ↔ w.mode = .operating ∧
    ((∃ t : TrainId, (w.trains[t]).state = .running ∨ (w.trains[t]).state = .cleared) ∨ ∃ c ∈ w.claims, c.isWaiting = false) := by
  unfold blocksStandby
  rw [Bool.and_eq_true, Bool.or_eq_true, Bool.or_eq_true, anyTrainIn_iff, anyTrainIn_iff, exists_or, List.any_eq_true,
    decide_eq_true_eq]
  simp only [Bool.not_eq_true']

/-! ### The entries (R160 to R163): what follows the change of mode sets no mode -/

theorem run_enterOperating_mode (s : State) : (s.run enterOperating).track.mode = .operating := by
  rw [State.run_track]
  exact moves_steady.mode (moves_steady.enterOperating s.env s.work)

theorem run_enterStandby_mode (s : State) : (s.run enterStandby).track.mode = .standby := by
  rw [State.run_track]
  exact moves_steady.mode (moves_steady.enterStandby s.env s.work)

theorem run_enterHalted_mode (s : State) : (s.run enterHalted).track.mode = .halted := by
  rw [State.run_track]
  exact moves_steady.mode (moves_steady.enterHalted s.env s.work)

section
variable (e : Env) {w : Work}

theorem enterHalted_operating (h : w.mode = .operating) :
    enterHalted e w = closeEvent e (postMode w.mode .setMode (rideHalt e .halted w)) := if_pos h

theorem enterHalted_elsewhere (h : w.mode ≠ .operating) :
    enterHalted e w = closeEvent e (postMode w.mode .setMode (applyRelease e { w with mode := .halted })) := if_neg h

end

/-! ### The examination (R159) -/

section
variable {s : State} {p : PortId} {n : Nat} {m : Mode}

theorem performSetMode_role (h : p ≠ 0) : performSetMode p n s = refuse .role s := if_pos h

section
variable (hp : p = 0)
include hp

theorem performSetMode_argument (h : modeArg n = none) : performSetMode p n s = refuse .argument s := by
  unfold performSetMode
  rw [if_neg (not_not.2 hp), h]

theorem performSetMode_past (h : modeArg n = some m) : performSetMode p n s =
    if s.track.mode = .unconfigured ∨ s.track.mode = .estopped then refuse .mode s
    else if s.track.mode = m then doneWith s else tryMode m s := by
  unfold performSetMode
  rw [if_neg (not_not.2 hp), h]

theorem performSetMode_mode (h : modeArg n = some m) (hf : ¬ (s.track.mode ≠ .unconfigured ∧ s.track.mode ≠ .estopped)) :
    performSetMode p n s = refuse .mode s :=
  (performSetMode_past hp h).trans (if_pos (not_and_or.1 hf |>.imp not_not.1 not_not.1))

/-- The mode in force, when SET_MODE may name it, is none of the two in which it is refused. -/
theorem performSetMode_inForce (h : modeArg n = some s.track.mode) : performSetMode p n s = doneWith s := by
  obtain ⟨-, hu, he⟩ := (modeArg_iff n _).1 h
  rw [performSetMode_past hp h, if_neg (not_or.2 ⟨hu, he⟩), if_pos rfl]

theorem performSetMode_changes (h : modeArg n = some m) (hf : s.track.mode ≠ .unconfigured ∧ s.track.mode ≠ .estopped)
    (hm : s.track.mode ≠ m) : performSetMode p n s = tryMode m s := by
  rw [performSetMode_past hp h, if_neg (not_or.2 hf), if_neg hm]

theorem performSetMode_operating (hf : s.track.mode ≠ .unconfigured ∧ s.track.mode ≠ .estopped) (hm : s.track.mode ≠ .operating) :
    performSetMode p 3 s = if blocksOperating s.track then refuse .state s else doneWith (s.run enterOperating) :=
  performSetMode_changes hp (n := 3) rfl hf hm

theorem performSetMode_standby (hf : s.track.mode ≠ .unconfigured ∧ s.track.mode ≠ .estopped) (hm : s.track.mode ≠ .standby) :
    performSetMode p 2 s = if blocksStandby s.track then refuse .state s else doneWith (s.run enterStandby) :=
  performSetMode_changes hp (n := 2) rfl hf hm

/-- The order to halt has no condition of its own. -/
theorem performSetMode_halted (h : s.track.mode = .operating ∨ s.track.mode = .standby) :
    performSetMode p 4 s = doneWith (s.run enterHalted) := by
  refine performSetMode_changes hp (n := 4) (m := .halted) rfl ?_ ?_
  all_goals rcases h with h | h
  all_goals simp [h]

end

end

end Sys2Proof.Machine

namespace Sys2Proof.Proofs
open Sys2Proof.Machine

/-- Settles O24: the examination in the order of R159, then each entry, which leaves the mode it sets. -/
theorem setMode : Obligations.SetMode := by
  intro s p n hi free unfit moving
  have hunfit : blocksOperating s.track = true ↔ unfit := blocksOperating_iff s.track
  have hmoving : blocksStandby s.track = true ↔ moving := blocksStandby_iff s.track
  refine ⟨fun hp => ?_, fun hp hn => ?_, fun hp h2 h4 hf => ?_, fun hp hm => ?_, fun hp hn hf hm hu => ?_, fun hp hn hf hm hu => ?_,
    fun hp hn hf hm hv => ?_, fun hp hn hf hm hv => ?_, fun hp hn hm => ?_, fun hp hn hm => ?_⟩
  · exact idle_refuses hi rfl rfl (performSetMode_role hp)
  · exact idle_refuses hi rfl rfl (performSetMode_argument hp (modeArg_none hn))
  · obtain ⟨m, harg⟩ := modeArg_named h2 h4
    exact idle_refuses hi rfl rfl (performSetMode_mode hp harg hf)
  · have harg : modeArg n = some s.track.mode := by
      rcases hm with ⟨hm, rfl⟩ | ⟨hm, rfl⟩ | ⟨hm, rfl⟩
      all_goals rw [hm]; rfl
    exact idle_answers hi rfl rfl (performSetMode_inForce hp harg)
  · subst hn
    exact idle_refuses hi rfl rfl ((performSetMode_operating hp hf hm).trans (if_pos (hunfit.2 hu)))
  · subst hn
    have hdone := (performSetMode_operating hp hf hm).trans (if_neg (mt hunfit.1 hu))
    exact ⟨s.run enterOperating, idle_answers hi rfl rfl hdone, run_enterOperating_mode s, rfl⟩
  · subst hn
    exact idle_refuses hi rfl rfl ((performSetMode_standby hp hf hm).trans (if_pos (hmoving.2 hv)))
  · subst hn
    have hdone := (performSetMode_standby hp hf hm).trans (if_neg (mt hmoving.1 hv))
    exact ⟨s.run enterStandby, idle_answers hi rfl rfl hdone, run_enterStandby_mode s, rfl⟩
  · subst hn
    exact ⟨s.run enterHalted, idle_answers hi rfl rfl (performSetMode_halted hp (.inl hm)), run_enterHalted_mode s,
      run_congr (enterHalted_operating s.env hm)⟩
  · subst hn
    have helse : s.work.mode ≠ .operating := ne_of_eq_of_ne hm (by decide)
    exact ⟨s.run enterHalted, idle_answers hi rfl rfl (performSetMode_halted hp (.inr hm)), run_enterHalted_mode s,
      run_congr (enterHalted_elsewhere s.env helse)⟩

end Sys2Proof.Proofs
end

section
/-! SUPPORT. The frames of a port (R168 to R170, R175, R176): the status byte, the check of a command frame, and what each kind of
frame comes to. -/

namespace Sys2Proof.Machine

/-! ### The status byte and the attention output (R170, Table 13-3) -/

/-- A mode's code and five flags packed into a byte are read back from it. -/
theorem packedStatus_bits (m : Mode) (b4 b3 b2 b1 b0 : Bool) :
    let b : Byte := BitVec.ofNat 8 (modeCode m * 32 + bitAt b4 4 + bitAt b3 3 + bitAt b2 2 + bitAt b1 1 + bitAt b0 0)
    b.toNat / 32 = modeCode m ∧ b.getLsbD 4 = b4 ∧ b.getLsbD 3 = b3 ∧ b.getLsbD 2 = b2 ∧ b.getLsbD 1 = b1 ∧ b.getLsbD 0 = b0 := by
  cases m with
  | unconfigured => decide +revert
  | standby => decide +revert
  | operating => decide +revert
  | halted => decide +revert
  | estopped => decide +revert

theorem yields_iff (w : Track) (p : PortId) : w.yields p = true ↔ ∃ h, w.sections[p] = .held h ∧ h.yield = true := by
  unfold Track.yields
  simp only [← heldSection_iff]
  cases w.heldSection p <;> simp

theorem attention_iff (r : Port) : r.attention = true ↔ r.replies ≠ [] ∨ r.notices ≠ [] := by
  unfold Port.attention
  rw [Bool.or_eq_true, Bool.not_eq_true', Bool.not_eq_true', List.isEmpty_eq_false_iff, List.isEmpty_eq_false_iff]

/-! ### Changes of one port's record -/

/-- Two changes that make the same of the port's record are one. -/
theorem modifyPort_congr {s : State} {p : PortId} {f g : Port → Port} (h : f s.ports[p] = g s.ports[p]) :
    s.modifyPort p f = s.modifyPort p g := by
  unfold State.modifyPort
  rw [h]

/-! ### The check of a command frame (R168, Table 13-1) -/

/-- The bytes behind the code are the parameters and one more, the check byte. -/
theorem checked_rest_iff (rest params : List Byte) (crc : List Byte → Byte) :
    (rest.getLast? = some (crc rest.dropLast) ∧ rest.dropLast = params) ↔ rest = params ++ [crc params] := by
  constructor
  · rintro ⟨hlast, rfl⟩
    exact (List.dropLast_append_getLast? _ hlast).symm
  · rintro rfl
    rw [List.dropLast_concat, List.getLast?_concat]
    exact ⟨rfl, rfl⟩

theorem checkFrame_long (kind len code : Byte) (rest : List Byte) : checkFrame (kind :: len :: code :: rest) =
    if kind = commandKind ∧ len.toNat ≤ Config.recordLength ∧ rest.length = len.toNat + 1 ∧
        rest.getLast? = some (crc8 (kind :: len :: code :: rest.dropLast)) then
      some { code := code, params := rest.dropLast }
    else none := rfl

/-- The frames that pass the check, byte by byte. -/
theorem checkFrame_iff (bytes : List Byte) (code : Byte) (params : List Byte) :
    checkFrame bytes = some { code := code, params := params } ↔
      ∃ len : Byte, len.toNat = params.length ∧ params.length ≤ Config.recordLength ∧
        bytes = commandKind :: len :: code :: (params ++ [crc8 (commandKind :: len :: code :: params)]) := by
  constructor
  · intro h
    unfold checkFrame at h
    split at h
    · next kind len c rest =>
      split at h
      · next hok =>
        obtain ⟨rfl, hlen, hcount, hcrc⟩ := hok
        cases h
        have hparams : rest.dropLast.length = len.toNat := by rw [List.length_dropLast, hcount, Nat.add_sub_cancel]
        have hrest := (checked_rest_iff rest _ fun ps => crc8 (commandKind :: len :: code :: ps)).1 ⟨hcrc, rfl⟩
        exact ⟨len, hparams.symm, hparams ▸ hlen, congrArg (commandKind :: len :: code :: ·) hrest⟩
      · cases h
    · cases h
  · rintro ⟨len, hcount, hlen, rfl⟩
    have hrest := (checked_rest_iff _ params fun ps => crc8 (commandKind :: len :: code :: ps)).2 rfl
    obtain ⟨hcrc, hparams⟩ := hrest
    have hlength : (params ++ [crc8 (commandKind :: len :: code :: params)]).length = len.toNat + 1 := by
      rw [List.length_append, hcount]
      rfl
    rw [checkFrame_long, if_pos ⟨rfl, hcount ▸ hlen, hlength, hcrc⟩, hparams]

/-! ### Frames by their kind byte -/

section
variable {s : State} {p : PortId} {bytes : List Byte}

theorem serveFrame_read (h : bytes.head? = some readKind) : serveFrame p bytes s = serveRead p bytes.length s := by
  unfold serveFrame
  rw [h]
  exact if_pos rfl

theorem serveFrame_repeat (h : bytes.head? = some repeatKind) : serveFrame p bytes s = serveRepeat p bytes.length s := by
  unfold serveFrame
  rw [h]
  exact (if_neg (by decide)).trans (if_pos rfl)

theorem serveFrame_other (hread : bytes.head? ≠ some readKind) (hrepeat : bytes.head? ≠ some repeatKind) :
    serveFrame p bytes s = serveCommand p bytes s := by
  unfold serveFrame
  split
  · next k hk =>
    rw [hk] at hread hrepeat
    rw [if_neg (mt (congrArg some) hread), if_neg (mt (congrArg some) hrepeat)]
  · rfl

/-! ### Command frames (R168, R175, R176) -/

/-- The port once the frame has been opened: rejected cleared, the status byte and zeros shifted out (R170, log 17). -/
def State.opened (s : State) (p : PortId) (bytes : List Byte) : State :=
  s.modifyPort p (Port.openFrame (shiftedOut bytes.length (s.statusOf p) []))

theorem opened_lapsed : ((s.opened p bytes).ports[p]).lapsed = (s.ports[p]).lapsed := by
  unfold State.opened
  rw [modifyPort_self]
  rfl

theorem serveCommand_full (h : Config.commandQueueSize ≤ (s.ports[p]).commands.length) :
    serveCommand p bytes s = s.opened p bytes := if_pos (decide_eq_true h)

section
variable (hroom : (s.ports[p]).commands.length < Config.commandQueueSize)
include hroom

theorem serveCommand_rejected (h : checkFrame bytes = none) :
    serveCommand p bytes s = rejectFrame p (s.opened p bytes) := by
  unfold serveCommand releaseCommand
  rw [decide_eq_false (Nat.not_le.2 hroom), h]
  rfl

theorem serveCommand_taken {f : TakenFrame} (h : checkFrame bytes = some f) :
    serveCommand p bytes s = takeFrame p f (s.opened p bytes) := by
  unfold serveCommand releaseCommand
  rw [decide_eq_false (Nat.not_le.2 hroom), h]
  rfl

end

/-- A frame taken by an ACTIVE port. -/
theorem takeFrame_active (f : TakenFrame) (h : (s.ports[p]).lapsed = false) :
    takeFrame p f s = runHead p (s.modifyPort p (Port.takeFrame (frameCommand f))) := by
  unfold takeFrame resumeNotice
  rw [h]
  rfl

/-- A frame taken by a LAPSED port (R176). -/
theorem takeFrame_lapsed (f : TakenFrame) (h : (s.ports[p]).lapsed = true) :
    takeFrame p f s = runHead p ((s.modifyPort p (Port.takeFrame (frameCommand f))).run
      fun _ w => w.post [0] .leaseResumed (.port p)) := by
  unfold takeFrame resumeNotice
  rw [h]
  rfl

/-! ### Read frames (R169) -/

theorem giveRecord_reply {r : Port} {x : Reply} {xs : List Reply} (h : r.replies = x :: xs) :
    chosenRecord r = .reply x ∧ r.giveRecord = { r with replies := xs, lastReturned := some (.reply x) } := by
  have hx : chosenRecord r = .reply x := by unfold chosenRecord; rw [h]
  refine ⟨hx, ?_⟩
  unfold Port.giveRecord
  rw [hx, h]
  rfl

theorem giveRecord_notice {r : Port} {x : Notice} {xs : List Notice} (h : r.replies = []) (hn : r.notices = x :: xs) :
    chosenRecord r = .notice x ∧ r.giveRecord = { r with notices := xs, lastReturned := some (.notice x) } := by
  have hx : chosenRecord r = .notice x := by unfold chosenRecord; rw [h, hn]
  refine ⟨hx, ?_⟩
  unfold Port.giveRecord
  rw [hx, hn]
  rfl

theorem giveRecord_empty {r : Port} (h : r.replies = []) (hn : r.notices = []) :
    chosenRecord r = .empty ∧ r.giveRecord = { r with lastReturned := some .empty } := by
  have hx : chosenRecord r = .empty := by unfold chosenRecord; rw [h, hn]
  refine ⟨hx, ?_⟩
  unfold Port.giveRecord
  rw [hx]

/-- Opening a frame leaves the queues alone, so the record given out is the one shifted out. -/
theorem giveRecord_openFrame (r : Port) (out : List Byte) :
    (r.openFrame out).giveRecord = { r.giveRecord with rejected := false, dataOut := out } := by
  have hx : chosenRecord (r.openFrame out) = chosenRecord r := rfl
  unfold Port.giveRecord
  rw [hx]
  cases chosenRecord r <;> rfl

section
variable {n : Nat}

/-- A whole READ frame gives the chosen record out, and the head command is taken (R169, R171). -/
theorem serveRead_whole (h : Config.readFrameLength ≤ n) {x : Record} {g : Port}
    (hx : chosenRecord (s.ports[p]) = x ∧ (s.ports[p]).giveRecord = g) :
    serveRead p n s = runHead p (s.modifyPort p fun _ =>
      { g with rejected := false, dataOut := shiftedOut n (s.statusOf p) (recordBytes x) }) := by
  obtain ⟨rfl, rfl⟩ := hx
  unfold serveRead openRecord
  dsimp only
  rw [if_pos h, modifyPort_twice]
  exact congrArg (runHead p) (modifyPort_congr (giveRecord_openFrame _ _))

theorem serveRepeat_whole (h : Config.readFrameLength ≤ n) :
    serveRepeat p n s = openRecord p n (repeatedRecord (s.ports[p])) s := if_pos h

/-- A read frame cut short: rejected is set, and nothing is given out (R169). -/
theorem rejectFrame_openRecord (x : Record) : rejectFrame p (openRecord p n x s) =
    s.modifyPort p fun r => { r with rejected := true, dataOut := shiftedOut n (s.statusOf p) (recordBytes x) } :=
  modifyPort_twice s p _ _

theorem serveRead_short (h : n < Config.readFrameLength) :
    serveRead p n s = rejectFrame p (openRecord p n (chosenRecord (s.ports[p])) s) := if_neg (Nat.not_le.2 h)

theorem serveRepeat_short (h : n < Config.readFrameLength) :
    serveRepeat p n s = rejectFrame p (openRecord p n (repeatedRecord (s.ports[p])) s) := if_neg (Nat.not_le.2 h)

end

end

end Sys2Proof.Machine

namespace Sys2Proof.Proofs
open Sys2Proof.Machine

/-- Settles O10: the byte is packed from the mode's code and five flags, each of which says what its bit says. -/
theorem statusByteAndAttention : Obligations.StatusByteAndAttention := by
  intro s p b r
  obtain ⟨hmode, hreply, hnotice, hfull, hrejected, hlapse⟩ := packedStatus_bits s.track.mode (!r.replies.isEmpty)
    (!r.notices.isEmpty) (decide (Config.commandQueueSize ≤ r.commands.length)) r.rejected (s.track.yields p || r.lapseSeen)
  refine ⟨hmode, ?_, ?_, ?_, hrejected, ?_, attention_iff r⟩
  · exact (Bool.eq_iff_iff.1 hreply).trans (by simp)
  · exact (Bool.eq_iff_iff.1 hnotice).trans (by simp)
  · exact (Bool.eq_iff_iff.1 hfull).trans decide_eq_true_iff
  · exact (Bool.eq_iff_iff.1 hlapse).trans (by rw [Bool.or_eq_true, yields_iff, or_comm])

/-- Settles O8: the frame by the room in the command queue and by its check; the check byte by byte. -/
theorem commandFrames : Obligations.CommandFrames := by
  refine ⟨?_, checkFrame_iff⟩
  intro s p bytes hread hrepeat out u
  have hserve : exec (.commandFrame p bytes) s = .next (serveCommand p bytes s) := congrArg _ (serveFrame_other hread hrepeat)
  rw [hserve]
  refine ⟨fun hfull => ?_, fun hroom hbad => ?_, ?_⟩
  · rw [serveCommand_full hfull]
    rfl
  · rw [serveCommand_rejected hroom hbad]
    rfl
  · intro f hroom hgood v
    rw [serveCommand_taken hroom hgood]
    refine ⟨fun hactive => ?_, fun hlapsed => ?_⟩
    · rw [takeFrame_active f (opened_lapsed.trans hactive)]
      rfl
    · rw [takeFrame_lapsed f (opened_lapsed.trans hlapsed)]
      rfl

/-- Settles O9: a whole READ frame by what waits, a whole REPEAT frame, a short frame of either kind, and the kind byte. -/
theorem readFrames : Obligations.ReadFrames := by
  intro s p n r out
  have hrow {t : State} (h : serveRead p n s = t) : exec (.readFrame p n) s = .next t := congrArg _ h
  refine ⟨fun hn x xs hr => ?_, fun hn hr x xs hx => ?_, fun hn hr hx => ?_, fun hn => ?_, fun hn => ?_, fun hn => ?_,
    fun bytes => ⟨fun hk => ?_, fun hk => ?_⟩⟩
  · exact hrow ((serveRead_whole hn (giveRecord_reply hr)).trans (congrArg _ (modifyPort_congr rfl)))
  · exact hrow ((serveRead_whole hn (giveRecord_notice hr hx)).trans (congrArg _ (modifyPort_congr rfl)))
  · exact hrow ((serveRead_whole hn (giveRecord_empty hr hx)).trans (congrArg _ (modifyPort_congr rfl)))
  · exact ⟨_, hrow ((serveRead_short hn).trans (rejectFrame_openRecord _))⟩
  · exact congrArg Host.Outcome.next ((serveRepeat_whole hn).trans (modifyPort_congr rfl))
  · exact ⟨_, congrArg Host.Outcome.next ((serveRepeat_short hn).trans (rejectFrame_openRecord _))⟩
  · exact congrArg Host.Outcome.next (serveFrame_read hk)
  · exact congrArg Host.Outcome.next (serveFrame_repeat hk)

end Sys2Proof.Proofs
end

section
/-! SUPPORT. The routing and queueing of notices (R172, Table 11-3). -/

namespace Sys2Proof.Machine

/-! ### Whom a notice reaches (R172, Table 11-3) -/

theorem ownsSubject_iff (l : Layout) (p : PortId) (x : Subject) :
    ownsSubject l p x = true ↔ ∃ z r, x = .zone z ∧ l.zones[z] = some r ∧ r.owner = some p := by
  unfold ownsSubject
  cases x with
  | zone z => simp [Option.bind_eq_some_iff]
  | _ => simp

theorem entitled_supervisor (l : Layout) (p : PortId) (n : Note) :
    entitled l p .supervisor n = true ↔ noticeClass n.name = .port := by
  unfold entitled
  cases noticeClass n.name <;> simp

theorem entitled_station (l : Layout) (p : PortId) (n : Note) : entitled l p .station n = true ↔
    noticeClass n.name = .mode ∨ noticeClass n.name = .fault ∧ ownsSubject l p n.subject = true := by
  unfold entitled
  cases noticeClass n.name <;> simp

theorem entitled_transfer (l : Layout) (p : PortId) (n : Note) :
    entitled l p .transfer n = true ↔ noticeClass n.name = .mode ∨ noticeClass n.name = .switch := by
  unfold entitled
  cases noticeClass n.name <;> simp

theorem entitled_observer (l : Layout) (p : PortId) (n : Note) :
    entitled l p .observer n = true ↔ noticeClass n.name = .mode ∨ noticeClass n.name = .fault := by
  unfold entitled
  cases noticeClass n.name <;> simp

/-- The number of a class is its place in Table 13-5. -/
theorem class_of_number (c : NoticeClass) :
    [NoticeClass.dispatch, .train, .sectional, .switch, .fault, .mode, .port][classNumber c - 1]? = some c := by
  cases c <;> rfl

/-- No two classes have one number. -/
theorem classNumber_inj {c d : NoticeClass} : classNumber c = classNumber d ↔ c = d :=
  ⟨fun h => Option.some.inj (by rw [← class_of_number c, h, class_of_number]), congrArg classNumber⟩

/-- Table 11-3, the classes by their numbers. -/
theorem entitled_iff (l : Layout) (p : PortId) (r : Role) (n : Note) : entitled l p r n = true ↔
    (r = .supervisor ∧ classNumber (noticeClass n.name) = 7) ∨ (r = .station ∧ classNumber (noticeClass n.name) = 6) ∨
    (r = .station ∧ classNumber (noticeClass n.name) = 5 ∧
      ∃ z x, n.subject = .zone z ∧ l.zones[z] = some x ∧ x.owner = some p) ∨
    (r = .transfer ∧ (classNumber (noticeClass n.name) = 6 ∨ classNumber (noticeClass n.name) = 4)) ∨
    (r = .observer ∧ (classNumber (noticeClass n.name) = 6 ∨ classNumber (noticeClass n.name) = 5)) := by
  have hswitch : classNumber (noticeClass n.name) = 4 ↔ noticeClass n.name = .switch := classNumber_inj (d := .switch)
  have hfault : classNumber (noticeClass n.name) = 5 ↔ noticeClass n.name = .fault := classNumber_inj (d := .fault)
  have hmode : classNumber (noticeClass n.name) = 6 ↔ noticeClass n.name = .mode := classNumber_inj (d := .mode)
  have hport : classNumber (noticeClass n.name) = 7 ↔ noticeClass n.name = .port := classNumber_inj (d := .port)
  rw [hswitch, hfault, hmode, hport, ← ownsSubject_iff]
  cases r with
  | supervisor => simp [entitled_supervisor]
  | station => simp [entitled_station]
  | transfer => simp [entitled_transfer]
  | observer => simp [entitled_observer]

/-- A notice reaches a port that it names or that its role entitles to it, where the mask admits its class. -/
theorem reaches_iff (l : Layout) (p : PortId) (r : Port) (o : Post) : reaches l p r o = true ↔
    (p ∈ o.named ∨ entitled l p r.role o.note = true) ∧ r.mask.getLsbD (classNumber (noticeClass o.note.name) - 1) = true := by
  unfold reaches admits
  rw [Bool.and_eq_true, Bool.or_eq_true, decide_eq_true_iff]

/-! ### What becomes of it (R172) -/

section
variable {s : State} {o : Post} {p : PortId}

theorem deliver_reached (h : reaches s.layout p s.ports[p] o = true) :
    (s.deliver [o]).ports[p] = (s.ports[p]).queueNotice { note := o.note, time := s.stamp } := by
  rw [deliver_port]
  exact if_pos h

theorem deliver_unreached (h : ¬ reaches s.layout p s.ports[p] o = true) : (s.deliver [o]).ports[p] = s.ports[p] := by
  rw [deliver_port]
  exact if_neg h

end

theorem queueNotice_room {r : Port} (n : Notice) (h : r.notices.length < Config.noticeQueueSize) : r.queueNotice n =
    { r with notices := r.notices ++ [n], summary := r.summary ||| classBit (noticeClass n.note.name) } := if_pos h

theorem queueNotice_full {r : Port} (n : Notice) (h : Config.noticeQueueSize ≤ r.notices.length) :
    r.queueNotice n = { r with overflow := true } := if_neg (Nat.not_lt.2 h)

theorem deliver_cons (s : State) (o : Post) (os : List Post) : s.deliver (o :: os) = (s.deliver [o]).deliver os := by
  apply state_ext_ports rfl
  intro q
  rw [deliver_port, deliver_port, deliver_port]
  exact List.foldl_append (l := [o]) (l' := os)

end Sys2Proof.Machine

namespace Sys2Proof.Proofs
open Sys2Proof.Machine

/-- Settles O11: a notice is due exactly where it reaches the port, and is queued by the room there is. -/
theorem noticeQueueing : Obligations.NoticeQueueing := by
  intro s o p r k due
  have hdue : reaches s.layout p r o = true ↔ due := by
    rw [reaches_iff, entitled_iff]
  refine ⟨fun hd hroom => ?_, fun hd hfull => ?_, fun hd => ?_, deliver_cons s o⟩
  · exact (deliver_reached (hdue.2 hd)).trans (queueNotice_room _ hroom)
  · exact (deliver_reached (hdue.2 hd)).trans (queueNotice_full _ hfull)
  · exact deliver_unreached (mt hdue.1 hd)

end Sys2Proof.Proofs
end

section
/-! SUPPORT. PING, READ_STATUS, SET_MASK and SET_LEASE: what they carry and what they store (R173 to R175, R178, R179). -/

namespace Sys2Proof.Machine

/-! ### What PING and READ_STATUS carry (R174) -/

theorem bytes4_ofNat (n : Nat) : bytes4 (BitVec.ofNat 32 n) =
    [byteOf (n % 2 ^ 32 / 2 ^ 24), byteOf (n % 2 ^ 32 / 2 ^ 16), byteOf (n % 2 ^ 32 / 2 ^ 8), byteOf (n % 2 ^ 32)] := by
  unfold bytes4
  rw [BitVec.toNat_ofNat]
  rfl

theorem modeNumber_eq (m : Mode) :
    modeNumber m = [Mode.unconfigured, .standby, .operating, .halted, .estopped].idxOf m + 1 := by
  cases m <;> rfl

theorem roleCode_eq (r : Role) : roleCode r = [Role.supervisor, .station, .transfer, .observer].idxOf r + 1 := by
  cases r <;> rfl

theorem yields_byte (w : Track) (p : PortId) : flagByte (w.yields p) = match w.sections[p] with
    | .held h => flagByte h.yield
    | _ => 0 := by
  unfold Track.yields Track.heldSection
  cases w.sections[p] <;> rfl

theorem unit_byte (u : LeaseUnit) : byteOf (unitCode u) = match u with
    | .tenths => 1
    | .seconds => 2 := by
  cases u <;> rfl

theorem lapse_bytes (s : State) : portIds.map (fun q => lapseCode (s.ports[q]).lapsed) =
    [lapseCode (s.ports[(0 : PortId)]).lapsed, lapseCode (s.ports[(1 : PortId)]).lapsed, lapseCode (s.ports[(2 : PortId)]).lapsed,
      lapseCode (s.ports[(3 : PortId)]).lapsed] := rfl

theorem remaining_bytes (x : Option Nat) : optField bytes3 x = match x with
    | some n => [byteOf (n / 2 ^ 16), byteOf (n / 2 ^ 8), byteOf n]
    | none => [0xFF] := by
  cases x <;> rfl

/-! ### SET_MASK (R173, R178) -/

theorem performSetMask_argument {m : Nat} (h : 128 ≤ m) (p : PortId) (s : State) :
    performSetMask p m s = refuse .argument s := if_pos h

theorem performSetMask_stores {m : Nat} (h : m < 128) (p : PortId) (s : State) :
    performSetMask p m s = doneWith (s.modifyPort p fun r => { r with mask := byteOf m }) := if_neg (Nat.not_le.2 h)

/-! ### SET_LEASE (R175) -/

theorem unitArg_code (u : LeaseUnit) : unitArg (unitCode u) = some u := by cases u <;> rfl

theorem unitArg_none {n : Nat} (h1 : n ≠ 1) (h2 : n ≠ 2) : unitArg n = none := by
  unfold unitArg
  split
  · exact absurd rfl h1
  · exact absurd rfl h2
  · rfl

/-- The stored setting, and the lease of the port: an ACTIVE one takes the new period. -/
theorem setLease_eq (n : Nat) (u : LeaseUnit) (r : Port) : r.setLease n u =
    { r with
      leaseCount := n, leaseUnit := u
      leaseRemaining := if r.lapsed then r.leaseRemaining else ({ r with leaseCount := n, leaseUnit := u } : Port).leaseFull } := by
  unfold Port.setLease
  cases h : r.lapsed with
  | true => simp
  | false => simp [Port.leaseFull]

section
variable {s : State} {p : PortId} {n count unit : Nat}

theorem performSetLease_role (h : p ≠ 0) : performSetLease p n count unit s = refuse .role s := if_pos h

theorem performSetLease_stores (h : p = 0) (q : PortId) (u : LeaseUnit) (hc : count ≤ 255) :
    performSetLease p q.val count (unitCode u) s = doneWith (s.modifyPort q (Port.setLease count u)) := by
  unfold performSetLease
  rw [if_neg (not_not.2 h), portArg_val, unitArg_code]
  exact if_pos ((inRange_iff 0 255 count).2 ⟨Nat.zero_le _, hc⟩)

/-- A port, a count or a unit that does not exist. -/
theorem performSetLease_argument (h : p = 0) (hbad : 4 ≤ n ∨ 256 ≤ count ∨ (unit ≠ 1 ∧ unit ≠ 2)) :
    performSetLease p n count unit s = refuse .argument s := by
  unfold performSetLease
  rw [if_neg (not_not.2 h)]
  split
  · next q u hq hu =>
    refine if_neg fun hr => ?_
    obtain ⟨-, hcount⟩ := (inRange_iff 0 255 count).1 hr
    rcases hbad with hn | hc | ⟨h1, h2⟩
    · rw [portArg_none hn] at hq
      cases hq
    · omega
    · rw [unitArg_none h1 h2] at hu
      cases hu
  · rfl

end

end Sys2Proof.Machine

namespace Sys2Proof.Proofs
open Sys2Proof.Machine

/-- Settles O12: what the two reads carry, field by field; the mask and the lease by their range checks. -/
theorem portCommands : Obligations.PortCommands := by
  refine ⟨⟨fun s p hi => ⟨?_, idle_answers hi rfl rfl rfl⟩, fun s p m hi => ⟨fun hm => ?_, fun hm => ?_⟩⟩, ?_,
    fun s p n count unit hi => ⟨fun hp => ?_, fun hp hbad => ?_, fun q u hp hn hc hu => ?_⟩⟩
  · have hping : perform p false .ping s = (s, .done (pingData s p)) := rfl
    rw [idle_answers hi rfl rfl hping]
    unfold pingData State.stamp
    rw [bytes4_ofNat]
    rfl
  · exact idle_refuses hi rfl rfl (performSetMask_argument hm p s)
  · exact idle_answers hi rfl rfl (performSetMask_stores hm p s)
  · intro s p r flag lapse
    unfold statusData
    dsimp only
    rw [modeNumber_eq, roleCode_eq, lapse_bytes, yields_byte, unit_byte, remaining_bytes]
    rfl
  · exact idle_refuses hi rfl rfl (performSetLease_role hp)
  · exact idle_refuses hi rfl rfl (performSetLease_argument hp hbad)
  · subst hn hu
    rw [idle_answers (i := .setLease p q.val count (unitCode u)) hi rfl rfl (performSetLease_stores hp q u hc),
      funext (setLease_eq count u)]
    rfl

end Sys2Proof.Proofs
end

section
/-! SUPPORT. The parameter bytes of a command are read back as that command (Table 11-2, R179, R180, log 10). -/

namespace Sys2Proof

/-! ### Parameters by kind: what is written is read back -/

theorem optionalByte_byteOfOptional {x : Option Nat} (h : isOptByte x = true) : optionalByte (byteOfOptional x) = x := by
  cases x with
  | none => rfl
  | some n =>
    have hn : n < 255 := by simpa [isOptByte] using h
    exact if_neg (Nat.ne_of_lt hn)

theorem exitOfByte_byteOfExit (x : Exit) : exitOfByte (byteOfExit x) = some x := by
  cases x with
  | zone z => exact dif_pos z.isLt
  | switch n =>
    have hswitch : 128 ≤ 128 + n.val ∧ 128 + n.val < 132 := by omega
    unfold exitOfByte byteOfExit
    dsimp only
    rw [dif_neg (by omega), dif_pos hswitch]
    simp

theorem zoneKindOfByte_byteOfZoneKind (k : ZoneKind) : zoneKindOfByte (byteOfZoneKind k) = some k := by cases k <;> rfl

theorem byteOfZoneKind_ne_zero (k : ZoneKind) : byteOfZoneKind k ≠ 0 := by cases k <;> decide

/-- The two polarities lie in the two low bits of their byte. -/
theorem polarities_read (a b : Bool) : byteOfPolarities a b < 4 ∧ decide (byteOfPolarities a b % 2 = 1) = a ∧
    decide (2 ≤ byteOfPolarities a b) = b := by
  decide +revert

theorem zoneParams_zoneBytes {f : Option ZoneFields} (h : f.all ZoneFields.wf = true) : zoneParams (zoneBytes f) = some f := by
  cases f with
  | none => rfl
  | some f =>
    simp only [Option.all_some, ZoneFields.wf, Bool.and_eq_true] at h
    obtain ⟨⟨⟨_, hready⟩, howner⟩, _⟩ := h
    obtain ⟨hfour, hentry, hstop⟩ := polarities_read f.entryHigh f.stopHigh
    unfold zoneParams zoneBytes
    dsimp only
    rw [if_neg (byteOfZoneKind_ne_zero f.kind), zoneKindOfByte_byteOfZoneKind, exitOfByte_byteOfExit]
    dsimp only
    rw [if_pos hfour, hentry, hstop, optionalByte_byteOfOptional hready, optionalByte_byteOfOptional howner]

theorem switchParams_switchBytes (f : Option SwitchFields) : switchParams (switchBytes f) = some f := by
  cases f with
  | none => rfl
  | some f =>
    obtain ⟨kind, root, straight, diverge, limit⟩ := f
    cases kind <;> rfl

theorem actionOfByte_byteOfAction (a : Option Action) : actionOfByte (byteOfAction a) = some a := by
  cases a with
  | none => rfl
  | some a => cases a <;> rfl

theorem stepParams_stepBytes (f : StepFields) : stepParams (stepBytes f) = some f := by
  obtain ⟨zone, action, dwell, opener⟩ := f
  have haction := actionOfByte_byteOfAction action
  rcases opener with _ | ⟨_ | _, e⟩
  all_goals
    unfold stepParams
    simp [stepBytes, bytesOfOpener, openerOfBytes, haction]

theorem flagOfByte_flag (b : Bool) : flagOfByte (if b then 1 else 0) = some b := by cases b <;> rfl

/-! ### PLACE_TRAIN and the sections (log 10) -/

theorem decode_placeTrain (t z g : Nat) (o : RouteOption) :
    decodeCommand 40 ([t, z, g] ++ bytesOfRouteOption o) = some (.placeTrain t z g o) := by
  cases o <;> rfl

theorem requestParams_bytes (zs : List Nat) {w : Option Nat} (h : isOptByte w = true) :
    requestParams zs.length (zs ++ [byteOfOptional w]) = some (.requestSection zs w) := by
  unfold requestParams
  dsimp only
  rw [List.drop_left, List.take_left]
  exact congrArg (fun w => some (Command.requestSection zs w)) (optionalByte_byteOfOptional h)

theorem declarationParams_bytes (ds : List (Nat × Declared)) :
    declarationParams ds.length (ds.flatMap bytesOfDeclaration) = some ds := by
  induction ds with
  | nil => rfl
  | cons d ds ih =>
    obtain ⟨z, _ | n⟩ := d
    all_goals
      rw [List.flatMap_cons, List.length_cons]
      simp [bytesOfDeclaration, declarationParams, declarationOfBytes, ih]

/-! ### Every command -/

/-- What is written of a command is read back as that command (Table 11-2). -/
theorem decodeCommand_commandBytes {c : Command} (h : c.wf = true) (hmask : ∀ m, c = .setMask m → m < 128) :
    decodeCommand (commandCode c) (commandBytes c) = some c := by
  cases c with
  | setMask m => exact if_pos (hmask m rfl)
  | loadZone z f =>
    simp only [Command.wf, Bool.and_eq_true] at h
    obtain ⟨-, hf⟩ := h
    exact congrArg (Option.map (Command.loadZone z)) (zoneParams_zoneBytes hf)
  | loadSwitch n f => exact congrArg (Option.map (Command.loadSwitch n)) (switchParams_switchBytes f)
  | loadStep r s f => exact congrArg (Option.map (Command.loadStep r s)) (stepParams_stepBytes f)
  | sealRoute r n w => exact congrArg (Option.map (Command.sealRoute r n)) (flagOfByte_flag w)
  | placeTrain t z g o => exact decode_placeTrain t z g o
  | requestSection zs w =>
    simp only [Command.wf, Bool.and_eq_true] at h
    obtain ⟨-, hw⟩ := h
    exact requestParams_bytes zs hw
  | returnSection ds => exact congrArg (Option.map Command.returnSection) (declarationParams_bytes ds)
  | _ => rfl

/-! ### The bytes fit a frame (R168) -/

theorem isByte_iff (n : Nat) : isByte n = true ↔ n < 256 := decide_eq_true_iff

theorem byteOfOptional_lt {x : Option Nat} (h : isOptByte x = true) : byteOfOptional x < 256 := by
  cases x with
  | none => decide
  | some n =>
    have hn : n < 255 := by simpa [isOptByte] using h
    exact Nat.lt_succ_of_lt hn

theorem zoneBytes_lt {f : Option ZoneFields} (h : f.all ZoneFields.wf = true) : ∀ b ∈ zoneBytes f, b < 256 := by
  cases f with
  | none => decide
  | some f =>
    simp only [Option.all_some, ZoneFields.wf, Bool.and_eq_true, isByte_iff] at h
    obtain ⟨⟨⟨⟨⟨⟨⟨hsettle, hgap⟩, hlimit⟩, htravel⟩, hwindow⟩, hready⟩, howner⟩, hwait⟩ := h
    have hkind : byteOfZoneKind f.kind < 256 := by cases f.kind <;> decide
    have hexit : byteOfExit f.exit < 256 := by cases f.exit <;> (unfold byteOfExit; dsimp only; omega)
    have hpolarity : byteOfPolarities f.entryHigh f.stopHigh < 256 := by
      obtain ⟨hfour, -⟩ := polarities_read f.entryHigh f.stopHigh
      omega
    simp only [zoneBytes, List.forall_mem_cons]
    exact ⟨hkind, hexit, hpolarity, hsettle, hgap, hlimit, htravel, hwindow, byteOfOptional_lt hready, byteOfOptional_lt howner,
      hwait, List.forall_mem_nil _⟩

theorem switchBytes_lt {f : Option SwitchFields} (h : f.all SwitchFields.wf = true) : ∀ b ∈ switchBytes f, b < 256 := by
  cases f with
  | none => decide
  | some f =>
    simp only [Option.all_some, SwitchFields.wf, Bool.and_eq_true, isByte_iff] at h
    obtain ⟨⟨⟨hroot, hstraight⟩, hdiverge⟩, hlimit⟩ := h
    have hkind : byteOfSwitchKind f.kind < 256 := by cases f.kind <;> decide
    simp only [switchBytes, List.forall_mem_cons]
    exact ⟨hkind, hroot, hstraight, hdiverge, hlimit, List.forall_mem_nil _⟩

theorem bytesOfOpener_lt {o : Option (OpenerKind × Nat)} (h : (o.all fun o => o.1.wf && isByte o.2) = true) :
    ∀ b ∈ bytesOfOpener o, b < 256 := by
  rcases o with _ | ⟨_ | _, e⟩
  · decide
  · simpa [bytesOfOpener, OpenerKind.wf, isByte_iff] using h
  · simpa [bytesOfOpener, OpenerKind.wf, isByte_iff] using h

theorem stepBytes_lt {f : StepFields} (h : f.wf = true) : ∀ b ∈ stepBytes f, b < 256 := by
  simp only [StepFields.wf, Bool.and_eq_true, isByte_iff] at h
  obtain ⟨⟨hzone, hdwell⟩, hopener⟩ := h
  have haction : byteOfAction f.action < 256 := by rcases f.action with _ | _ | _ <;> decide
  simp only [stepBytes, List.forall_mem_append, List.forall_mem_cons]
  exact ⟨⟨hzone, haction, hdwell, List.forall_mem_nil _⟩, bytesOfOpener_lt hopener⟩

theorem bytesOfRouteOption_lt {o : RouteOption} (h : o.wf = true) : ∀ b ∈ bytesOfRouteOption o, b < 256 := by
  rcases o with _ | _ | ⟨r, s⟩
  · decide
  · decide
  · simpa [bytesOfRouteOption, RouteOption.wf, isByte_iff] using h

theorem bytesOfDeclaration_lt {d : Nat × Declared} (hz : d.1 < 256) (h : d.2.wf = true) : ∀ b ∈ bytesOfDeclaration d, b < 256 := by
  obtain ⟨z, _ | n⟩ := d
  · simpa [bytesOfDeclaration] using hz
  · simpa [bytesOfDeclaration] using ⟨hz, (isByte_iff n).1 h⟩

theorem zoneBytes_length (f : Option ZoneFields) : (zoneBytes f).length = 11 := by cases f <;> rfl

theorem switchBytes_length (f : Option SwitchFields) : (switchBytes f).length = 5 := by cases f <;> rfl

theorem stepBytes_length (f : StepFields) : (stepBytes f).length = 6 := by
  obtain ⟨zone, action, dwell, _ | ⟨_ | _, e⟩⟩ := f <;> rfl

theorem bytesOfRouteOption_length (o : RouteOption) : (bytesOfRouteOption o).length = 3 := by cases o <;> rfl

/-- A declaration takes three bytes. -/
theorem declarations_length (ds : List (Nat × Declared)) : (ds.flatMap bytesOfDeclaration).length = 3 * ds.length := by
  have hthree : ∀ d : Nat × Declared, (bytesOfDeclaration d).length = 3 := by rintro ⟨z, _ | n⟩ <;> rfl
  induction ds with
  | nil => rfl
  | cons d ds ih =>
    rw [List.flatMap_cons, List.length_append, hthree, ih, List.length_cons]
    omega

/-- Every parameter is a byte (R179). -/
theorem commandBytes_lt {c : Command} (h : c.wf = true) : ∀ b ∈ commandBytes c, b < 256 := by
  cases c with
  | loadZone z f =>
    simp only [Command.wf, Bool.and_eq_true, isByte_iff] at h
    obtain ⟨hz, hf⟩ := h
    exact List.forall_mem_cons.2 ⟨hz, zoneBytes_lt hf⟩
  | loadSwitch n f =>
    simp only [Command.wf, Bool.and_eq_true, isByte_iff] at h
    obtain ⟨hn, hf⟩ := h
    exact List.forall_mem_cons.2 ⟨hn, switchBytes_lt hf⟩
  | loadStep r s f =>
    simp only [Command.wf, Bool.and_eq_true, isByte_iff] at h
    obtain ⟨⟨hr, hs⟩, hf⟩ := h
    exact List.forall_mem_cons.2 ⟨hr, List.forall_mem_cons.2 ⟨hs, stepBytes_lt hf⟩⟩
  | sealRoute r n w => cases w <;> simpa [commandBytes, Command.wf, isByte_iff] using h
  | placeTrain t z g o =>
    simp only [Command.wf, Bool.and_eq_true, isByte_iff] at h
    obtain ⟨⟨⟨ht, hz⟩, hg⟩, ho⟩ := h
    exact List.forall_mem_append.2 ⟨by simp [ht, hz, hg], bytesOfRouteOption_lt ho⟩
  | requestSection zs w =>
    simp only [Command.wf, Bool.and_eq_true, decide_eq_true_iff, List.all_eq_true, isByte_iff] at h
    obtain ⟨⟨hcount, hzones⟩, hw⟩ := h
    refine List.forall_mem_cons.2 ⟨by omega, List.forall_mem_append.2 ⟨hzones, ?_⟩⟩
    simpa using byteOfOptional_lt hw
  | returnSection ds =>
    simp only [Command.wf, Bool.and_eq_true, decide_eq_true_iff, List.all_eq_true, isByte_iff] at h
    obtain ⟨hcount, hds⟩ := h
    refine List.forall_mem_cons.2 ⟨by omega, fun b hb => ?_⟩
    obtain ⟨d, hd, hbd⟩ := List.mem_flatMap.1 hb
    obtain ⟨hz, hwf⟩ := hds d hd
    exact bytesOfDeclaration_lt hz hwf b hbd
  | ping | readStatus | commit | uncommit | restart | cancelSection => exact List.forall_mem_nil _
  | _ => simpa [commandBytes, Command.wf, isByte_iff, and_assoc] using h

/-- The parameters of a command fit a frame (R168). -/
theorem commandBytes_length {c : Command} (h : c.wf = true) : (commandBytes c).length ≤ 30 := by
  cases c with
  | loadZone z f => simp [commandBytes, zoneBytes_length]
  | loadSwitch n f => simp [commandBytes, switchBytes_length]
  | loadStep r s f => simp [commandBytes, stepBytes_length]
  | placeTrain t z g o => simp [commandBytes, bytesOfRouteOption_length]
  | requestSection zs w =>
    simp only [Command.wf, Bool.and_eq_true, decide_eq_true_iff] at h
    obtain ⟨⟨hcount, -⟩, -⟩ := h
    simp only [commandBytes, List.length_cons, List.length_append, List.length_nil]
    omega
  | returnSection ds =>
    simp only [Command.wf, Bool.and_eq_true, decide_eq_true_iff] at h
    obtain ⟨hcount, -⟩ := h
    simp only [commandBytes, List.length_cons, declarations_length]
    omega
  | _ => simp [commandBytes]

end Sys2Proof

namespace Sys2Proof.Proofs

/-- Settles O60: the bytes fit by the bounds of the command's numbers and lists, and are read back parameter by parameter. -/
theorem commandBytesReadBack : Obligations.CommandBytesReadBack :=
  fun _ h hmask => ⟨commandBytes_length h, commandBytes_lt h, decodeCommand_commandBytes h hmask⟩

end Sys2Proof.Proofs
end

section
/-! SUPPORT. One step (log 2, log 3): the command at the front of the queue, the events that are due, and the step on an empty
queue. -/

namespace Sys2Proof.Machine

/-! ### Timers that have reached 0 -/

theorem runOut_iff (x : Option Nat) : runOut x = true ↔ x = some 0 := decide_eq_true_iff

section
variable (w : Track)

theorem settleDue_iff (z : ZoneId) : settleDue w z = true ↔ ∃ t, w.zoneState z = some (.clearing t 0) := by
  unfold settleDue
  split
  · next t n h => simp [h]
  · next h => simpa using fun t => h t 0

theorem confirmDue_iff (z : ZoneId) : confirmDue w z = true ↔ ∃ b, w.brake z = some b ∧ b.supervision = .awaiting 0 :=
  decide_eq_true_iff.trans Option.map_eq_some_iff

theorem gapDue_iff (z : ZoneId) : gapDue w z = true ↔
    (∃ q n, w.trackers[z] = some (.passing q n (some 0))) ∨ w.trackers[z] = some (.stuck (some 0)) := by
  unfold gapDue
  split <;> next h => simp [h, runOut_iff]

theorem limitDue_iff (z : ZoneId) : limitDue w z = true ↔ ∃ q g, w.trackers[z] = some (.passing q 0 g) := by
  unfold limitDue
  split <;> next h => simp [h]

theorem moveDue_iff (n : SwitchId) : moveDue w n = true ↔ ∃ q v, w.switchState n = some (.moving q 0 v) := by
  unfold moveDue
  split
  · next q k v h => simp [h]
  · next h => simpa using fun q => h q 0

theorem mem_expiredClaimants (k : Claimant) : k ∈ expiredClaimants w ↔
    ∃ c ∈ w.claims ++ w.line, c.claimant = k ∧ c.state = .waiting ∧ c.wait = some 0 := by
  simp only [expiredClaimants, Track.allClaims, List.mem_map, List.mem_filter, Bool.and_eq_true, isWaiting_iff, runOut_iff]
  exact exists_congr fun c => by rw [and_assoc, and_comm (a := c.claimant = k)]

end

/-! ### Changes of inputs that are due (R40) -/

theorem mem_zoneIds (z : ZoneId) : z ∈ zoneIds := List.mem_finRange z

theorem mem_allInputs (i : InputId) : i ∈ allInputs := by
  unfold allInputs
  cases i with
  | position n q => cases q <;> simp [mem_switchIds]
  | _ => simp [mem_zoneIds]

/-- The change of an input that a row delivers: the input, and whether it is active. -/
def changeOf : Instr → Option (InputId × Bool)
  | .entrySensorChange z a => some (.entry z, a)
  | .stopSensorChange z a => some (.stop z, a)
  | .holdFeedbackChange z a => some (.feedback z, a)
  | .switchPositionChange n q a => some (.position n q, a)
  | .readyChange r a => some (.ready r, a)
  | .estopLineChange k a => some (.estop k, a)
  | _ => none

theorem changeOf_inputRow (x : InputId) (a : Bool) : changeOf (inputRow x a) = some (x, a) := by cases x <;> rfl

theorem inputRow_of_changeOf {i : Instr} {x : InputId} {a : Bool} (h : changeOf i = some (x, a)) : inputRow x a = i := by
  unfold changeOf at h
  split at h <;> cases h <;> rfl

/-- The change of an input waits for delivery, and the input is now as told. -/
def State.owes (s : State) (x : InputId) (a : Bool) : Prop :=
  (inputLine s.inputs x).due = true ∧ inputActive s.layout s.inputs x = a

theorem mem_dueChanges (s : State) (i : Instr) : i ∈ dueChanges s ↔ ∃ c, changeOf i = some c ∧ s.owes c.1 c.2 := by
  simp only [dueChanges, List.mem_map, List.mem_filter, mem_allInputs, true_and]
  constructor
  · rintro ⟨x, hdue, rfl⟩
    exact ⟨(x, _), changeOf_inputRow x _, hdue, rfl⟩
  · rintro ⟨⟨x, a⟩, hi, hdue, ha⟩
    exact ⟨x, hdue, (congrArg (inputRow x) ha).trans (inputRow_of_changeOf hi)⟩

/-! ### The events that are due (log 2, log 3) -/

/-- When an event is due: its timer stands at 0, the occupancy sample is not yet taken, or the change is not yet delivered. -/
def isDue (s : State) : Instr → Prop
  | .settleExpiry z => ∃ t, s.track.zoneState z = some (.clearing t 0)
  | .holdConfirmExpiry z => ∃ b, s.track.brake z = some b ∧ b.supervision = .awaiting 0
  | .passageGapExpiry z =>
    (∃ q n, s.track.trackers[z] = some (.passing q n (some 0))) ∨ s.track.trackers[z] = some (.stuck (some 0))
  | .passageLimitExpiry z => ∃ q g, s.track.trackers[z] = some (.passing q 0 g)
  | .dwellExpiry t => (s.track.trains[t]).dwell = some 0
  | .departureWindowExpiry t => (s.track.trains[t]).departure = some 0
  | .travelLimitExpiry t => (s.track.trains[t]).travel = some 0
  | .claimWaitExpiry k => ∃ c ∈ s.track.claims ++ s.track.line, c.claimant = k ∧ c.state = .waiting ∧ c.wait = some 0
  | .moveLimitExpiry n => ∃ q v, s.track.switchState n = some (.moving q 0 v)
  | .leaseExpiry p => (s.ports[p]).leaseRemaining = some 0
  | .estopClearExpiry => s.track.estopClear = some 0
  | .occupancySample => s.sampleDue = true
  | .entrySensorChange z a => s.owes (.entry z) a
  | .stopSensorChange z a => s.owes (.stop z) a
  | .holdFeedbackChange z a => s.owes (.feedback z) a
  | .switchPositionChange n q a => s.owes (.position n q) a
  | .readyChange r a => s.owes (.ready r) a
  | .estopLineChange k a => s.owes (.estop k) a
  | _ => False

/-- The lists the due events are drawn from: the changes of inputs, and object by object the timers. -/
theorem mem_dueEvents_lists (s : State) (i : Instr) : i ∈ dueEvents s ↔
    i ∈ dueChanges s ∨ (∃ z, settleDue s.track z = true ∧ .settleExpiry z = i) ∨
    (∃ z, confirmDue s.track z = true ∧ .holdConfirmExpiry z = i) ∨ (∃ z, gapDue s.track z = true ∧ .passageGapExpiry z = i) ∨
    (∃ z, limitDue s.track z = true ∧ .passageLimitExpiry z = i) ∨
    (∃ t : TrainId, runOut (s.track.trains[t]).dwell = true ∧ .dwellExpiry t = i) ∨
    (∃ t : TrainId, runOut (s.track.trains[t]).departure = true ∧ .departureWindowExpiry t = i) ∨
    (∃ t : TrainId, runOut (s.track.trains[t]).travel = true ∧ .travelLimitExpiry t = i) ∨
    (∃ n, moveDue s.track n = true ∧ .moveLimitExpiry n = i) ∨
    (∃ k, k ∈ expiredClaimants s.track ∧ .claimWaitExpiry k = i) ∨
    (∃ p : PortId, runOut (s.ports[p]).leaseRemaining = true ∧ .leaseExpiry p = i) ∨
    (runOut s.track.estopClear = true ∧ i = .estopClearExpiry) ∨ s.sampleDue = true ∧ i = .occupancySample := by
  simp only [dueEvents, dueZones, dueTrains, dueOthers, List.mem_append, List.mem_map, List.mem_filter, mem_zoneIds,
    mem_trainIds, mem_switchIds, mem_portIds, true_and, List.mem_ite_nil_right, List.mem_singleton, or_assoc]

/-- The due events are those whose timer or change says so. -/
theorem mem_dueEvents (s : State) (i : Instr) : i ∈ dueEvents s ↔ isDue s i := by
  rw [mem_dueEvents_lists, mem_dueChanges]
  cases i with
  | settleExpiry z => simp [isDue, changeOf, settleDue_iff]
  | holdConfirmExpiry z => simp [isDue, changeOf, confirmDue_iff]
  | passageGapExpiry z => simp [isDue, changeOf, gapDue_iff]
  | passageLimitExpiry z => simp [isDue, changeOf, limitDue_iff]
  | dwellExpiry t | departureWindowExpiry t | travelLimitExpiry t | leaseExpiry p | estopClearExpiry =>
    simp [isDue, changeOf, runOut_iff]
  | moveLimitExpiry n => simp [isDue, changeOf, moveDue_iff]
  | claimWaitExpiry k => simp [isDue, changeOf, mem_expiredClaimants]
  | _ => simp [isDue, changeOf]

/-- No command, start, frame or arrival is due. -/
theorem only_events_due {s : State} {i : Instr} (h : i ∈ dueEvents s) :
    i.command = none ∧ i ≠ .coldStart ∧ i ≠ .warmStart ∧ (∀ p b, i ≠ .commandFrame p b) ∧
      (∀ p n, i ≠ .readFrame p n) ∧ (∀ p n, i ≠ .repeatFrame p n) ∧ ∀ n, i ≠ .moveArrival n := by
  rw [mem_dueEvents] at h
  refine ⟨?_, ?_, ?_, fun p b => ?_, fun p n => ?_, fun p n => ?_, fun n => ?_⟩
  · unfold isDue at h
    split at h <;> trivial
  all_goals
    rintro rfl
    exact h

/-! ### The step -/

theorem step_front (s : State) (c : Instr) (rest : List Instr) :
    step { s with pending := c :: rest } = exec c { s with pending := rest } := rfl

theorem step_single {s : State} {i : Instr} (hp : s.pending = []) (hd : dueEvents s = [i]) : step s = exec i s := by
  simp [step, stepIdle, hp, hd]

/-- The free choice among several due events takes one of them. -/
theorem stepChosen_exec (s : State) (i : Instr) (rest : List Instr) :
    ∃ j ∈ i :: rest, stepChosen i rest s = exec j { s with choices := s.choices + 1 } := by
  refine ⟨_, ?_, rfl⟩
  cases h : rest[Config.dueChoice s.choices % (rest.length + 1)]? with
  | none => exact List.mem_cons_self
  | some j => exact List.mem_cons_of_mem _ (List.mem_of_getElem? h)

theorem step_several {s : State} (hp : s.pending = []) (hd : 2 ≤ (dueEvents s).length) :
    ∃ i ∈ dueEvents s, step s = exec i { s with choices := s.choices + 1 } := by
  have hstep : step s = stepIdle s := by simp [step, hp]
  rw [hstep, stepIdle]
  match h : dueEvents s with
  | [] | [_] => simp [h] at hd
  | i :: j :: rest => exact stepChosen_exec s i (j :: rest)

end Sys2Proof.Machine

namespace Sys2Proof.Proofs

open Sys2Proof.Machine

/-- Settles O1: the step takes the queue apart. -/
theorem stepRunsTheFrontCommand : Obligations.StepRunsTheFrontCommand := step_front

/-- Settles O2: the step by how many events are due, and the due events by `mem_dueEvents`. -/
theorem stepOnEmptyQueue : Obligations.StepOnEmptyQueue := by
  refine ⟨fun s hp => ⟨step_tick hp, fun i => step_single hp, step_several hp⟩, fun s => ?_⟩
  have hdue := mem_dueEvents s
  exact ⟨fun _ => hdue _, fun _ => hdue _, fun _ => hdue _, fun _ => hdue _, fun _ => hdue _, fun _ => hdue _, fun _ => hdue _,
    fun _ => hdue _, fun _ => hdue _, fun _ => hdue _, hdue _, hdue _, fun _ _ => hdue _, fun _ _ => hdue _, fun _ _ => hdue _,
    fun _ _ _ => hdue _, fun _ _ => hdue _, fun _ _ => hdue _, fun _ => only_events_due⟩

end Sys2Proof.Proofs
end
